-- ==== Sys2Proof/Word.lean ====
section
/-! DEFINITION. The words SEB is made of: their widths (`00_scope.md` R10, R11) and nothing else. -/

namespace Sys2Proof

/-- One byte of the external memory (R71). -/
abbrev Byte := BitVec 8

/-- A 32-bit register, address or opcode (R10: `REG_BITS`; R71). -/
abbrev Word := BitVec 32

/-- A point or a distance on the `now` axis (R10: `CYCLE_BITS`; R132). -/
abbrev Cycle := BitVec 64

/-- An operation word of the command port or the CPU port (R90). -/
abbrev OpWord := BitVec 96

/-- A TaskId (R23, R93). -/
abbrev TaskId := BitVec 8

/-- A core identifier: 0..3 the symmetric cores, 4 the management core (R26). -/
abbrev CoreId := Fin 5

/-- A symmetric core (R26). -/
abbrev SymId := Fin 4

/-- An interrupt type of the symmetric-core domain (R10: `N_IRQ_TYPES`; R39). -/
abbrev IrqType := Fin 128

end Sys2Proof
end

