-- ==== Sys2Proof/Config.lean ====
section
/-! DEFINITION. What an implementation fixes (the OPEN parameters of `00_scope.md` R10) and the free values.

The open parameters are plain data (`Params`), and every state carries the ones its machine was built with, so
that a statement about every state is a statement about every value of every parameter.  The free values are
constants without a body: nothing can be proved about which value they are. -/

namespace Sys2Proof.Machine

/-- The widths of the memory port: 1, 2 or 4 bytes (R70). -/
inductive Width where
  /-- 8 bits. -/
  | byte
  /-- 16 bits: the width of a compact opcode (R105). -/
  | half
  /-- 32 bits: the width of a full-width opcode (R105). -/
  | word
deriving DecidableEq, Repr

/-- What the executor of a core does next (R150 (b), (c)). -/
inductive ExecAction where
  /-- Presents a word on the CPU port (R92). -/
  | cpuWord (w : OpWord)
  /-- Presents a word on the command port (R91 (b)). -/
  | cmdWord (w : OpWord)
  /-- `MemRead` with its own core identifier (R70, R72). -/
  | memRead (addr : Word) (n : Width)
  /-- `MemWrite` with its own core identifier (R70, R72). -/
  | memWrite (addr : Word) (n : Width) (value : Word)
  /-- Returns a cost (R150 (c)). -/
  | done (cost : BitVec 32)
  /-- Returns `Unrecognized` (R150 (c), R152). -/
  | unrecognized
deriving DecidableEq, Repr, Inhabited

/-- What an external callback does next (R23, R126). -/
inductive CallbackAction where
  /-- Presents a word on the command port (R91 (a)). -/
  | cmdWord (w : OpWord)
  /-- Reads the external memory (R76, R23): a read that carries no core identifier. -/
  | memRead (addr : Word) (n : Width)
  /-- An external memory effect (R23): a store that carries no core identifier. -/
  | memWrite (addr : Word) (n : Width) (value : Word)
  /-- Returns. -/
  | ret
deriving DecidableEq, Repr

/-- What the operations of one CPU step, or of one external callback, have answered so far, the latest first: the value
of an operation that returns one (R46, R70), none for one that returns nothing. -/
abbrev Answers := List (Option (BitVec 64))

/-- One line of the table of the executor: in a step of `core` with this opcode, after these answers, it does this
(R150 (d)). -/
structure ExecRule where
  /-- The core whose step is in progress. -/
  core : CoreId
  /-- The opcode the executor was called with. -/
  opcode : Word
  /-- The answers so far. -/
  answers : Answers
  /-- What the executor does next. -/
  action : ExecAction
deriving DecidableEq, Repr

/-- One line of the registry: the callback bound to `task`, after these answers, does this (R23, R126). -/
structure CallbackRule where
  /-- The peripheral task. -/
  task : TaskId
  /-- The answers so far. -/
  answers : Answers
  /-- What the callback does next. -/
  action : CallbackAction
deriving DecidableEq, Repr

end Sys2Proof.Machine

namespace Sys2Proof

/-- A range of addresses that the external memory map does NOT route to plain memory, for the cores whose bit is
set: peripheral registers, or an unmapped hole (R70, R80).  What a read there answers is a free value.  That no operation
moves a window at run time, not even the pulse `memcfg_update`, is a DESIGN CHOICE (log entry 29), unsafe. -/
structure Window where
  /-- Bit `c` set: the window stands in core `c`'s view (R71). -/
  cores : BitVec 5
  /-- The first address of the window. -/
  lo : Word
  /-- The last address of the window. -/
  hi : Word
deriving DecidableEq, Repr

/-- The OPEN parameters of R10, "fixed for the life of the machine". -/
structure Params where
  /-- `REBASE_HORIZON` (R10, R128). -/
  rebaseHorizon : Cycle
  /-- `IRQ_LATENCY` (R10, R203). -/
  irqLatency : Cycle
  /-- `N_TASKS` (R10, R23). -/
  nTasks : Nat
  /-- `PERF_IRQ_TYPE` (R10, R211). -/
  perfIrqType : IrqType
  /-- `BOOT_PC[c]` (R10, R291). -/
  bootPc : Vector Word 5
  /-- `EXC_BASE_RESET[c]` (R10, R49). -/
  excBaseReset : Vector Word 5
  /-- The part of the external memory map that is not plain memory (R70): the model's own parameter. -/
  windows : List Window
  /-- `Exec` (R150), a parameter of the step relation (R48): the table's first line for a core, an opcode and the
  answers so far says what the executor does, and `Config.openExec` where there is none (log entry 5). -/
  executor : List Machine.ExecRule
  /-- `registry` (R23), a parameter of the step relation (R48): the table's first line for a task and the answers so far
  says what the callback bound to the task does, and it returns where there is none.  So every task has one callback, the
  same at every dispatch, and each is a finite sequence that returns (log entry 6). -/
  registry : List Machine.CallbackRule
deriving DecidableEq, Repr

/-- The values `State.reset` is built with.  `REBASE_HORIZON` and `IRQ_LATENCY` have these defaults in R10;
`N_TASKS`, `PERF_IRQ_TYPE` and `EXC_BASE_RESET` have them in `93_implementation_defined.md` Part 2; `BOOT_PC` has
none anywhere.  DESIGN CHOICE (log entry 1), unsafe only for a statement that names this constant. -/
def Params.default : Params where
  rebaseHorizon := 0x7FFFFFFFFFFFFFFF#64
  irqLatency := 1#64
  nTasks := 16
  perfIrqType := 88
  bootPc := Vector.replicate 5 0#32
  excBaseReset := Vector.replicate 5 0#32
  windows := []
  executor := []
  registry := []

/-- FREE VALUE: what `resp` holds after an operation that returns nothing, or a saved status read where there is
none (R100, R178; U2, U3), indexed by the counter of State.  Log entries 9 and 10. -/
opaque Config.openResp : Nat → BitVec 64

/-- FREE VALUE: what a read of an address inside a `Window` answers (R70, R80; U19), indexed by the counter of
State.  Log entry 3. -/
opaque Config.openRead : Nat → Word

/-- FREE VALUE: what a general register slot or a saved-status register holds after the `RESET` operation
(R49 "unspecified"; U1), indexed by the counter of State.  Log entry 12. -/
opaque Config.openReg : Nat → Word

/-- FREE VALUE: what the executor of a core does with an opcode after the given answers, where the table of `Params`
has no line for it (R150, R4 (b)).  Log entry 5. -/
opaque Config.openExec : CoreId → Word → Machine.Answers → Machine.ExecAction

end Sys2Proof
end

