-- ==== Sys2Proof/Syntax.lean ====
section
/-! DEFINITION. The operations of SEB (`00_scope.md` R2): one constructor per row of `spec/opcode_table.json`.

Every field has the width the encoding gives it (R94, R95), so a value the operation rejects (a core number above 4,
an interrupt type out of range) is still an operand here: rejecting it is the operation's own behaviour. -/

namespace Sys2Proof

/-- The 23 operations of the command port, the 12 primitives of the CPU port and the 9 rows of tasks (R94, R93). -/
inductive Instr where
  /-- `SCHEDULE`: insert an event `delay` cycles from now (R120). -/
  | schedule (task : BitVec 8) (delay : BitVec 64)
  /-- `SEND_IRQ`: set a pending bit and schedule its delivery (R201). -/
  | sendIrq (target : BitVec 8) (type : BitVec 16)
  /-- `HALT`: set a bit of the halted mask (R210). -/
  | halt (core : BitVec 8) (reason : BitVec 8)
  /-- `UNHALT`: clear a bit of the halted mask (R214). -/
  | unhalt (core : BitVec 8) (reason : BitVec 8)
  /-- `SGI`: software-generated interrupt (R215; request word R98). -/
  | sgi (core : BitVec 8) (type : BitVec 10) (mask : BitVec 4) (mode : BitVec 2)
  /-- `MGMT_ENABLE_WRITE`: write the enables of the management core (R217). -/
  | mgmtEnableWrite (value : BitVec 32)
  /-- `MGMT_PEND_CLEAR`: clear pending bits of the management core (R218). -/
  | mgmtPendClear (mask : BitVec 32)
  /-- `MGMT_PEND_READ`: read the pending bits of the management core (R219). -/
  | mgmtPendRead
  /-- `MGMT_ENABLE_READ`: read the enables of the management core (R220). -/
  | mgmtEnableRead
  /-- `DIST_ENABLE_WRITE`: write the global enable of the distributor (R221). -/
  | distEnableWrite (value : BitVec 1)
  /-- `LOCAL_ENABLE_WRITE`: write the local enable of a symmetric core (R222). -/
  | localEnableWrite (core : BitVec 8) (value : BitVec 1)
  /-- `IRQ_ENABLE_SET`: enable an interrupt type on a symmetric core (R223). -/
  | irqEnableSet (core : BitVec 8) (type : BitVec 16)
  /-- `IRQ_ENABLE_CLEAR`: disable an interrupt type on a symmetric core (R224). -/
  | irqEnableClear (core : BitVec 8) (type : BitVec 16)
  /-- `ROUTE_WRITE`: write the routing mask of an interrupt type (R225). -/
  | routeWrite (type : BitVec 16) (mask : BitVec 4)
  /-- `IRQ_ACK`: claim the lowest pending-and-enabled type (R226). -/
  | irqAck (core : BitVec 8)
  /-- `IRQ_EOI`: end of interrupt (R227). -/
  | irqEoi (core : BitVec 8) (type : BitVec 16)
  /-- `XCORE_START`: mark an extra core as started (R230). -/
  | xcoreStart (core : BitVec 8)
  /-- `XCORE_SHUTDOWN_REQ`: ask an extra core to stop when it next halts (R231). -/
  | xcoreShutdownReq (core : BitVec 8)
  /-- `EXC_BASE_WRITE`: write a core's exception base (R257). -/
  | excBaseWrite (core : BitVec 8) (value : BitVec 32)
  /-- `PERF_MODE_WRITE`: configure the performance mode (R232). -/
  | perfModeWrite (value : BitVec 32)
  /-- `READ_CYCLE`: read `now` (R130). -/
  | readCycle
  /-- `RUN`: start the engine loop; host only (R140). -/
  | run
  /-- `RESET`: run the reset sequence; host only (R290). -/
  | reset
  /-- `REG_READ`: read a logical register (R170). -/
  | regRead (core : BitVec 8) (index : BitVec 4)
  /-- `REG_WRITE`: write a logical register (R171). -/
  | regWrite (core : BitVec 8) (index : BitVec 4) (value : BitVec 32)
  /-- `PC_WRITE`: the taken branch (R172). -/
  | pcWrite (core : BitVec 8) (target : BitVec 32)
  /-- `STATUS_READ`: read the status register (R173). -/
  | statusRead (core : BitVec 8)
  /-- `STATUS_WRITE`: voluntary status write, mode switch (R174). -/
  | statusWrite (core : BitVec 8) (value : BitVec 32)
  /-- `SAVED_STATUS_READ`: read the saved status of the current bank (R177). -/
  | savedStatusRead (core : BitVec 8)
  /-- `SAVED_STATUS_WRITE`: write the saved status of the current bank (R179). -/
  | savedStatusWrite (core : BitVec 8) (value : BitVec 32)
  /-- `BANK_REG_READ`: read a register of another mode (R180). -/
  | bankRegRead (core : BitVec 8) (index : BitVec 4) (mode : BitVec 5)
  /-- `BANK_REG_WRITE`: write a register of another mode (R181). -/
  | bankRegWrite (core : BitVec 8) (index : BitVec 4) (mode : BitVec 5) (value : BitVec 32)
  /-- `TRAP`: raise a synchronous exception (R182). -/
  | trap (core : BitVec 8) (exc : BitVec 3) (back : BitVec 32)
  /-- `EXC_RETURN`: return from an exception (R183). -/
  | excReturn (core : BitVec 8) (target : BitVec 32)
  /-- `WAIT_IRQ`: enter the interrupt wait (R184). -/
  | waitIrq (core : BitVec 8)
  /-- `T_REBASE`: TaskId 0: rebase the time axis (R128). -/
  | tRebase
  /-- `T_END_FRAME`: TaskId 1: clear `running` (R157). -/
  | tEndFrame
  /-- `T_CORE_CONFIG`: TaskId 2: choose the 2-core or 4-core configuration (R158). -/
  | tCoreConfig
  /-- `T_IRQ_DELIVER_0`: TaskId 3: deliver interrupts to core 0 (R205). -/
  | tIrqDeliver0
  /-- `T_IRQ_DELIVER_1`: TaskId 4: deliver interrupts to core 1 (R205). -/
  | tIrqDeliver1
  /-- `T_IRQ_DELIVER_2`: TaskId 5: deliver interrupts to core 2 (R205). -/
  | tIrqDeliver2
  /-- `T_IRQ_DELIVER_3`: TaskId 6: deliver interrupts to core 3 (R205). -/
  | tIrqDeliver3
  /-- `T_IRQ_DELIVER_4`: TaskId 7: deliver interrupts to the management core (R205). -/
  | tIrqDeliver4
  /-- `T_PERIPHERAL`: TaskId 8 and above: the external callback bound to `task` (R126). -/
  | tPeripheral (task : BitVec 8)
deriving DecidableEq, Repr

/-! ## Pseudo-operations (R107) -/

/-- `WFI core=c`. -/
def Instr.wfi (core : BitVec 8) : Instr := .halt core 0#8

/-- `WAKE core=c, reason=r`. -/
def Instr.wake (core reason : BitVec 8) : Instr := .unhalt core reason

/-- `SEND_IRQ.B type=t`. -/
def Instr.sendIrqBroadcast (type : BitVec 16) : Instr := .sendIrq 5#8 type

/-- `SGI.MASK core=i, type=t, mask=m`. -/
def Instr.sgiMask (core : BitVec 8) (type : BitVec 10) (mask : BitVec 4) : Instr := .sgi core type mask 0#2

/-- `SGI.OTHERS core=i, type=t`. -/
def Instr.sgiOthers (core : BitVec 8) (type : BitVec 10) : Instr := .sgi core type 0#4 1#2

/-- `SGI.SELF core=i, type=t`. -/
def Instr.sgiSelf (core : BitVec 8) (type : BitVec 10) : Instr := .sgi core type 0#4 2#2

/-- `END_FRAME delay=d`. -/
def Instr.endFrame (delay : Cycle) : Instr := .schedule 1#8 delay

/-- `BRANCH core=c, target=a`. -/
def Instr.branch (core : BitVec 8) (target : Word) : Instr := .pcWrite core target

/-! ## Textual syntax (R106) -/

/-- The operation's mnemonic (R94, R93). -/
def Instr.mnemonic : Instr → String
  | .schedule _ _ => "SCHEDULE"
  | .sendIrq _ _ => "SEND_IRQ"
  | .halt _ _ => "HALT"
  | .unhalt _ _ => "UNHALT"
  | .sgi _ _ _ _ => "SGI"
  | .mgmtEnableWrite _ => "MGMT_ENABLE_WRITE"
  | .mgmtPendClear _ => "MGMT_PEND_CLEAR"
  | .mgmtPendRead => "MGMT_PEND_READ"
  | .mgmtEnableRead => "MGMT_ENABLE_READ"
  | .distEnableWrite _ => "DIST_ENABLE_WRITE"
  | .localEnableWrite _ _ => "LOCAL_ENABLE_WRITE"
  | .irqEnableSet _ _ => "IRQ_ENABLE_SET"
  | .irqEnableClear _ _ => "IRQ_ENABLE_CLEAR"
  | .routeWrite _ _ => "ROUTE_WRITE"
  | .irqAck _ => "IRQ_ACK"
  | .irqEoi _ _ => "IRQ_EOI"
  | .xcoreStart _ => "XCORE_START"
  | .xcoreShutdownReq _ => "XCORE_SHUTDOWN_REQ"
  | .excBaseWrite _ _ => "EXC_BASE_WRITE"
  | .perfModeWrite _ => "PERF_MODE_WRITE"
  | .readCycle => "READ_CYCLE"
  | .run => "RUN"
  | .reset => "RESET"
  | .regRead _ _ => "REG_READ"
  | .regWrite _ _ _ => "REG_WRITE"
  | .pcWrite _ _ => "PC_WRITE"
  | .statusRead _ => "STATUS_READ"
  | .statusWrite _ _ => "STATUS_WRITE"
  | .savedStatusRead _ => "SAVED_STATUS_READ"
  | .savedStatusWrite _ _ => "SAVED_STATUS_WRITE"
  | .bankRegRead _ _ _ => "BANK_REG_READ"
  | .bankRegWrite _ _ _ _ => "BANK_REG_WRITE"
  | .trap _ _ _ => "TRAP"
  | .excReturn _ _ => "EXC_RETURN"
  | .waitIrq _ => "WAIT_IRQ"
  | .tRebase => "T_REBASE"
  | .tEndFrame => "T_END_FRAME"
  | .tCoreConfig => "T_CORE_CONFIG"
  | .tIrqDeliver0 => "T_IRQ_DELIVER_0"
  | .tIrqDeliver1 => "T_IRQ_DELIVER_1"
  | .tIrqDeliver2 => "T_IRQ_DELIVER_2"
  | .tIrqDeliver3 => "T_IRQ_DELIVER_3"
  | .tIrqDeliver4 => "T_IRQ_DELIVER_4"
  | .tPeripheral _ => "T_PERIPHERAL"

/-- The free fields by name, in the order of the table of R94. -/
def Instr.fields : Instr → List (String × Nat)
  | .schedule task delay => [("task", task.toNat), ("delay", delay.toNat)]
  | .sendIrq target type => [("target", target.toNat), ("type", type.toNat)]
  | .halt core reason => [("core", core.toNat), ("reason", reason.toNat)]
  | .unhalt core reason => [("core", core.toNat), ("reason", reason.toNat)]
  | .sgi core type mask mode => [("core", core.toNat), ("type", type.toNat), ("mask", mask.toNat), ("mode", mode.toNat)]
  | .mgmtEnableWrite value => [("value", value.toNat)]
  | .mgmtPendClear mask => [("mask", mask.toNat)]
  | .mgmtPendRead => []
  | .mgmtEnableRead => []
  | .distEnableWrite value => [("value", value.toNat)]
  | .localEnableWrite core value => [("core", core.toNat), ("value", value.toNat)]
  | .irqEnableSet core type => [("core", core.toNat), ("type", type.toNat)]
  | .irqEnableClear core type => [("core", core.toNat), ("type", type.toNat)]
  | .routeWrite type mask => [("type", type.toNat), ("mask", mask.toNat)]
  | .irqAck core => [("core", core.toNat)]
  | .irqEoi core type => [("core", core.toNat), ("type", type.toNat)]
  | .xcoreStart core => [("core", core.toNat)]
  | .xcoreShutdownReq core => [("core", core.toNat)]
  | .excBaseWrite core value => [("core", core.toNat), ("value", value.toNat)]
  | .perfModeWrite value => [("value", value.toNat)]
  | .readCycle => []
  | .run => []
  | .reset => []
  | .regRead core index => [("core", core.toNat), ("index", index.toNat)]
  | .regWrite core index value => [("core", core.toNat), ("index", index.toNat), ("value", value.toNat)]
  | .pcWrite core target => [("core", core.toNat), ("target", target.toNat)]
  | .statusRead core => [("core", core.toNat)]
  | .statusWrite core value => [("core", core.toNat), ("value", value.toNat)]
  | .savedStatusRead core => [("core", core.toNat)]
  | .savedStatusWrite core value => [("core", core.toNat), ("value", value.toNat)]
  | .bankRegRead core index mode => [("core", core.toNat), ("index", index.toNat), ("mode", mode.toNat)]
  | .bankRegWrite core index mode value => [("core", core.toNat), ("index", index.toNat), ("mode", mode.toNat), ("value", value.toNat)]
  | .trap core exc back => [("core", core.toNat), ("exc", exc.toNat), ("back", back.toNat)]
  | .excReturn core target => [("core", core.toNat), ("target", target.toNat)]
  | .waitIrq core => [("core", core.toNat)]
  | .tRebase => []
  | .tEndFrame => []
  | .tCoreConfig => []
  | .tIrqDeliver0 => []
  | .tIrqDeliver1 => []
  | .tIrqDeliver2 => []
  | .tIrqDeliver3 => []
  | .tIrqDeliver4 => []
  | .tPeripheral task => [("task", task.toNat)]

/-- An operation as text: the mnemonic, then `name=value` for each free field, separated by commas (R106). -/
def Instr.text (i : Instr) : String :=
  match i.fields with
  | [] => i.mnemonic
  | fs => i.mnemonic ++ " " ++ String.intercalate ", " (fs.map (fun f => f.1 ++ "=" ++ toString f.2))

end Sys2Proof
end

