-- ==== Sys2Proof/WellFormed.lean ====
section
/-! DEFINITION. Well-formedness of operations and of the parameters. -/

namespace Sys2Proof

/-- An operation is well formed when it has an encoding of its own.  The field widths of `Instr` are those of the
encoding (R95), so the one check is that a peripheral task is not one of SEB's own TaskIds 0..7 (R23, R93). -/
def Instr.wf : Instr → Bool
  | .tPeripheral task => decide (8#8 ≤ task)
  | _ => true

/-- The constraints R10 puts on the OPEN parameters. -/
def Params.wf (p : Params) : Bool :=
  decide (1#64 ≤ p.rebaseHorizon) && decide (p.rebaseHorizon ≤ 0x7FFFFFFFFFFFFFFF#64)
    && decide (p.irqLatency < p.rebaseHorizon)
    && decide (8 ≤ p.nTasks) && decide (p.nTasks ≤ 256)
    && (List.finRange 5).all (fun c => p.bootPc[c].extractLsb' 0 2 == 0#2)

end Sys2Proof
end

