-- ==== Sys2Proof/Decode.lean ====
section
/-! DEFINITION. The encoding of operations (`30_encoding.md`): the decoder, total on every word, and the encoder.

An operation word (formats CMD and CPU) is 96 bits, a task (format TASK) is one byte (R90).  The decoder reads the op
code and the three fields of R90, and refuses a word by name: an op code outside the map (R102), or a one in a
reserved bit of the row the op code selects (R101). -/

namespace Sys2Proof

/-- What is presented for decoding: an operation word on a port, or the TaskId of an event (R90). -/
inductive Encoded where
  /-- A word of format CMD or CPU. -/
  | op (w : OpWord)
  /-- A TaskId, format TASK (R93). -/
  | task (b : TaskId)
deriving DecidableEq, Repr

/-- Why a word is no operation. -/
inductive DecodeError where
  /-- The op code is not in the map (R102). -/
  | illegalOpCode
  /-- A reserved bit of the row is one (R101). -/
  | reservedBit
deriving DecidableEq, Repr

/-- The three formats (R90). -/
inductive Format where
  /-- The command port. -/
  | cmd
  /-- The CPU port. -/
  | cpu
  /-- An event of the queue. -/
  | task
deriving DecidableEq, Repr

/-! ## The fields of an operation word (R90) -/

/-- `w[95:88]`, the op code. -/
def fieldOp (w : OpWord) : BitVec 8 := w.extractLsb' 88 8

/-- `w[87:80]`. -/
def fieldA (w : OpWord) : BitVec 8 := w.extractLsb' 80 8

/-- `w[79:64]`. -/
def fieldB (w : OpWord) : BitVec 16 := w.extractLsb' 64 16

/-- `w[63:0]`. -/
def fieldD (w : OpWord) : BitVec 64 := w.extractLsb' 0 64

/-- The word with the four given fields (R90). -/
def mkWord (op a : BitVec 8) (b : BitVec 16) (d : BitVec 64) : OpWord := op ++ a ++ b ++ d

/-! ## Decoding -/

/-- An operation, unless a reserved field is nonzero (R101). -/
def whenReservedZero (reservedZero : Bool) (i : Instr) : Except DecodeError Instr :=
  if reservedZero then .ok i else .error .reservedBit

/-- The opcode map of R94, with the fields of R95 to R99 pulled out. -/
def decodeFields (op a : BitVec 8) (b : BitVec 16) (d : BitVec 64) : Except DecodeError Instr :=
  match op with
  | 0x01#8 => whenReservedZero (decide (b = 0#16)) (.schedule a d)
  | 0x02#8 => whenReservedZero (decide (d = 0#64)) (.sendIrq a b)
  | 0x03#8 => whenReservedZero (decide (b.extractLsb' 8 8 = 0#8 ∧ d = 0#64)) (.halt a (b.extractLsb' 0 8))
  | 0x04#8 => whenReservedZero (decide (b.extractLsb' 8 8 = 0#8 ∧ d = 0#64)) (.unhalt a (b.extractLsb' 0 8))
  | 0x05#8 => whenReservedZero (decide (b = 0#16 ∧ d.extractLsb' 26 38 = 0#38 ∧ d.extractLsb' 20 4 = 0#4 ∧ d.extractLsb' 10 6 = 0#6)) (.sgi a (d.extractLsb' 0 10) (d.extractLsb' 16 4) (d.extractLsb' 24 2))
  | 0x06#8 => whenReservedZero (decide (a = 0#8 ∧ b = 0#16 ∧ d.extractLsb' 32 32 = 0#32)) (.mgmtEnableWrite (d.extractLsb' 0 32))
  | 0x07#8 => whenReservedZero (decide (a = 0#8 ∧ b = 0#16 ∧ d.extractLsb' 32 32 = 0#32)) (.mgmtPendClear (d.extractLsb' 0 32))
  | 0x08#8 => whenReservedZero (decide (a = 0#8 ∧ b = 0#16 ∧ d = 0#64)) (.mgmtPendRead)
  | 0x09#8 => whenReservedZero (decide (a = 0#8 ∧ b = 0#16 ∧ d = 0#64)) (.mgmtEnableRead)
  | 0x0A#8 => whenReservedZero (decide (a = 0#8 ∧ b = 0#16 ∧ d.extractLsb' 1 63 = 0#63)) (.distEnableWrite (d.extractLsb' 0 1))
  | 0x0B#8 => whenReservedZero (decide (b = 0#16 ∧ d.extractLsb' 1 63 = 0#63)) (.localEnableWrite a (d.extractLsb' 0 1))
  | 0x0C#8 => whenReservedZero (decide (d = 0#64)) (.irqEnableSet a b)
  | 0x0D#8 => whenReservedZero (decide (d = 0#64)) (.irqEnableClear a b)
  | 0x0E#8 => whenReservedZero (decide (a = 0#8 ∧ d.extractLsb' 4 60 = 0#60)) (.routeWrite b (d.extractLsb' 0 4))
  | 0x0F#8 => whenReservedZero (decide (b = 0#16 ∧ d = 0#64)) (.irqAck a)
  | 0x10#8 => whenReservedZero (decide (d = 0#64)) (.irqEoi a b)
  | 0x11#8 => whenReservedZero (decide (b = 0#16 ∧ d = 0#64)) (.xcoreStart a)
  | 0x12#8 => whenReservedZero (decide (b = 0#16 ∧ d = 0#64)) (.xcoreShutdownReq a)
  | 0x13#8 => whenReservedZero (decide (b = 0#16 ∧ d.extractLsb' 32 32 = 0#32)) (.excBaseWrite a (d.extractLsb' 0 32))
  | 0x14#8 => whenReservedZero (decide (a = 0#8 ∧ b = 0#16 ∧ d.extractLsb' 32 32 = 0#32)) (.perfModeWrite (d.extractLsb' 0 32))
  | 0x15#8 => whenReservedZero (decide (a = 0#8 ∧ b = 0#16 ∧ d = 0#64)) (.readCycle)
  | 0x16#8 => whenReservedZero (decide (a = 0#8 ∧ b = 0#16 ∧ d = 0#64)) (.run)
  | 0x17#8 => whenReservedZero (decide (a = 0#8 ∧ b = 0#16 ∧ d = 0#64)) (.reset)
  | 0x40#8 => whenReservedZero (decide (b.extractLsb' 4 12 = 0#12 ∧ d = 0#64)) (.regRead a (b.extractLsb' 0 4))
  | 0x41#8 => whenReservedZero (decide (b.extractLsb' 4 12 = 0#12 ∧ d.extractLsb' 32 32 = 0#32)) (.regWrite a (b.extractLsb' 0 4) (d.extractLsb' 0 32))
  | 0x42#8 => whenReservedZero (decide (b = 0#16 ∧ d.extractLsb' 32 32 = 0#32)) (.pcWrite a (d.extractLsb' 0 32))
  | 0x43#8 => whenReservedZero (decide (b = 0#16 ∧ d = 0#64)) (.statusRead a)
  | 0x44#8 => whenReservedZero (decide (b = 0#16 ∧ d.extractLsb' 32 32 = 0#32)) (.statusWrite a (d.extractLsb' 0 32))
  | 0x45#8 => whenReservedZero (decide (b = 0#16 ∧ d = 0#64)) (.savedStatusRead a)
  | 0x46#8 => whenReservedZero (decide (b = 0#16 ∧ d.extractLsb' 32 32 = 0#32)) (.savedStatusWrite a (d.extractLsb' 0 32))
  | 0x47#8 => whenReservedZero (decide (b.extractLsb' 13 3 = 0#3 ∧ b.extractLsb' 4 4 = 0#4 ∧ d = 0#64)) (.bankRegRead a (b.extractLsb' 0 4) (b.extractLsb' 8 5))
  | 0x48#8 => whenReservedZero (decide (b.extractLsb' 13 3 = 0#3 ∧ b.extractLsb' 4 4 = 0#4 ∧ d.extractLsb' 32 32 = 0#32)) (.bankRegWrite a (b.extractLsb' 0 4) (b.extractLsb' 8 5) (d.extractLsb' 0 32))
  | 0x49#8 => whenReservedZero (decide (b.extractLsb' 3 13 = 0#13 ∧ d.extractLsb' 32 32 = 0#32)) (.trap a (b.extractLsb' 0 3) (d.extractLsb' 0 32))
  | 0x4A#8 => whenReservedZero (decide (b = 0#16 ∧ d.extractLsb' 32 32 = 0#32)) (.excReturn a (d.extractLsb' 0 32))
  | 0x4B#8 => whenReservedZero (decide (b = 0#16 ∧ d = 0#64)) (.waitIrq a)
  | _ => .error .illegalOpCode

/-- The operation a word of a port stands for (R90, R94, R101, R102). -/
def decodeOp (w : OpWord) : Except DecodeError Instr :=
  decodeFields (fieldOp w) (fieldA w) (fieldB w) (fieldD w)

/-- The task a TaskId stands for (R93).  Every value from 8 up is a peripheral task here: whether it is below
`N_TASKS`, an open parameter, is tested where it is dispatched. -/
def decodeTask (b : TaskId) : Instr :=
  match b with
  | 0x00#8 => .tRebase
  | 0x01#8 => .tEndFrame
  | 0x02#8 => .tCoreConfig
  | 0x03#8 => .tIrqDeliver0
  | 0x04#8 => .tIrqDeliver1
  | 0x05#8 => .tIrqDeliver2
  | 0x06#8 => .tIrqDeliver3
  | 0x07#8 => .tIrqDeliver4
  | _ => .tPeripheral b

/-- The decoder, total on every word and every TaskId. -/
def decode : Encoded → Except DecodeError Instr
  | .op w => decodeOp w
  | .task b => .ok (decodeTask b)

/-- The operation the decoder reads from the bits of an opcode-table row: 96 bits are an operation word, 8 bits a
TaskId. -/
def decodeTableWord (nbits w : Nat) : Option Instr :=
  if nbits = 96 then (decode (.op (BitVec.ofNat 96 w))).toOption
  else if nbits = 8 then (decode (.task (BitVec.ofNat 8 w))).toOption
  else none

/-! ## Encoding -/

/-- The TaskId of a task (R93); 0 for an operation word, which has none. -/
def taskByte : Instr → TaskId
  | .tRebase => 0x00#8
  | .tEndFrame => 0x01#8
  | .tCoreConfig => 0x02#8
  | .tIrqDeliver0 => 0x03#8
  | .tIrqDeliver1 => 0x04#8
  | .tIrqDeliver2 => 0x05#8
  | .tIrqDeliver3 => 0x06#8
  | .tIrqDeliver4 => 0x07#8
  | .tPeripheral task => task
  | _ => 0x00#8

/-- The word of an operation, every reserved bit zero (R94, R101); 0, an illegal word, for a task, which has none. -/
def opWord : Instr → OpWord
  | .schedule task delay => mkWord 0x01#8 task 0#16 delay
  | .sendIrq target type => mkWord 0x02#8 target type 0#64
  | .halt core reason => mkWord 0x03#8 core (0#8 ++ reason) 0#64
  | .unhalt core reason => mkWord 0x04#8 core (0#8 ++ reason) 0#64
  | .sgi core type mask mode => mkWord 0x05#8 core 0#16 (0#38 ++ mode ++ 0#4 ++ mask ++ 0#6 ++ type)
  | .mgmtEnableWrite value => mkWord 0x06#8 0#8 0#16 (0#32 ++ value)
  | .mgmtPendClear mask => mkWord 0x07#8 0#8 0#16 (0#32 ++ mask)
  | .mgmtPendRead => mkWord 0x08#8 0#8 0#16 0#64
  | .mgmtEnableRead => mkWord 0x09#8 0#8 0#16 0#64
  | .distEnableWrite value => mkWord 0x0A#8 0#8 0#16 (0#63 ++ value)
  | .localEnableWrite core value => mkWord 0x0B#8 core 0#16 (0#63 ++ value)
  | .irqEnableSet core type => mkWord 0x0C#8 core type 0#64
  | .irqEnableClear core type => mkWord 0x0D#8 core type 0#64
  | .routeWrite type mask => mkWord 0x0E#8 0#8 type (0#60 ++ mask)
  | .irqAck core => mkWord 0x0F#8 core 0#16 0#64
  | .irqEoi core type => mkWord 0x10#8 core type 0#64
  | .xcoreStart core => mkWord 0x11#8 core 0#16 0#64
  | .xcoreShutdownReq core => mkWord 0x12#8 core 0#16 0#64
  | .excBaseWrite core value => mkWord 0x13#8 core 0#16 (0#32 ++ value)
  | .perfModeWrite value => mkWord 0x14#8 0#8 0#16 (0#32 ++ value)
  | .readCycle => mkWord 0x15#8 0#8 0#16 0#64
  | .run => mkWord 0x16#8 0#8 0#16 0#64
  | .reset => mkWord 0x17#8 0#8 0#16 0#64
  | .regRead core index => mkWord 0x40#8 core (0#12 ++ index) 0#64
  | .regWrite core index value => mkWord 0x41#8 core (0#12 ++ index) (0#32 ++ value)
  | .pcWrite core target => mkWord 0x42#8 core 0#16 (0#32 ++ target)
  | .statusRead core => mkWord 0x43#8 core 0#16 0#64
  | .statusWrite core value => mkWord 0x44#8 core 0#16 (0#32 ++ value)
  | .savedStatusRead core => mkWord 0x45#8 core 0#16 0#64
  | .savedStatusWrite core value => mkWord 0x46#8 core 0#16 (0#32 ++ value)
  | .bankRegRead core index mode => mkWord 0x47#8 core (0#3 ++ mode ++ 0#4 ++ index) 0#64
  | .bankRegWrite core index mode value => mkWord 0x48#8 core (0#3 ++ mode ++ 0#4 ++ index) (0#32 ++ value)
  | .trap core exc back => mkWord 0x49#8 core (0#13 ++ exc) (0#32 ++ back)
  | .excReturn core target => mkWord 0x4A#8 core 0#16 (0#32 ++ target)
  | .waitIrq core => mkWord 0x4B#8 core 0#16 0#64
  | _ => 0#96

/-- The format of an operation (R90, R94). -/
def Instr.format (i : Instr) : Format :=
  match i with
  | .tRebase | .tEndFrame | .tCoreConfig | .tIrqDeliver0 | .tIrqDeliver1 | .tIrqDeliver2 | .tIrqDeliver3
  | .tIrqDeliver4 | .tPeripheral _ => .task
  | .regRead _ _ | .regWrite _ _ _ | .pcWrite _ _ | .statusRead _ | .statusWrite _ _ | .savedStatusRead _
  | .savedStatusWrite _ _ | .bankRegRead _ _ _ | .bankRegWrite _ _ _ _ | .trap _ _ _ | .excReturn _ _
  | .waitIrq _ => .cpu
  | .schedule _ _ | .sendIrq _ _ | .halt _ _ | .unhalt _ _ | .sgi _ _ _ _ | .mgmtEnableWrite _ | .mgmtPendClear _
  | .mgmtPendRead | .mgmtEnableRead | .distEnableWrite _ | .localEnableWrite _ _ | .irqEnableSet _ _
  | .irqEnableClear _ _ | .routeWrite _ _ | .irqAck _ | .irqEoi _ _ | .xcoreStart _ | .xcoreShutdownReq _
  | .excBaseWrite _ _ | .perfModeWrite _ | .readCycle | .run | .reset => .cmd

/-- `RUN` and `RESET` "may be issued only by the host" (R91). -/
def Instr.hostOnly (i : Instr) : Bool :=
  match i with
  | .run | .reset => true
  | _ => false

/-- The operations that return a value in `resp` (R46). -/
def Instr.returnsValue (i : Instr) : Bool :=
  match i with
  | .readCycle | .mgmtPendRead | .mgmtEnableRead | .irqAck _ | .regRead _ _ | .statusRead _ | .savedStatusRead _
  | .bankRegRead _ _ _ => true
  | .schedule _ _ | .sendIrq _ _ | .halt _ _ | .unhalt _ _ | .sgi _ _ _ _ | .mgmtEnableWrite _ | .mgmtPendClear _
  | .distEnableWrite _ | .localEnableWrite _ _ | .irqEnableSet _ _ | .irqEnableClear _ _ | .routeWrite _ _
  | .irqEoi _ _ | .xcoreStart _ | .xcoreShutdownReq _ | .excBaseWrite _ _ | .perfModeWrite _ | .run | .reset
  | .regWrite _ _ _ | .pcWrite _ _ | .statusWrite _ _ | .savedStatusWrite _ _ | .bankRegWrite _ _ _ _ | .trap _ _ _
  | .excReturn _ _ | .waitIrq _ | .tRebase | .tEndFrame | .tCoreConfig | .tIrqDeliver0 | .tIrqDeliver1
  | .tIrqDeliver2 | .tIrqDeliver3 | .tIrqDeliver4 | .tPeripheral _ => false

/-- The encoder: the word or the TaskId of a well-formed operation. -/
def encode (i : Instr) : Encoded :=
  match i.format with
  | .task => .task (taskByte i)
  | .cmd | .cpu => .op (opWord i)

end Sys2Proof
end

