-- ==== Sys2Proof/Machine/Memory.lean ====
section
/-! DEFINITION. The plain part of the external memory (`20_memory.md`): one address space of 2^32 bytes (R71), as a
list of (address, byte) pairs in one canonical form.

The port moves values (R74); which byte of the memory is which part of a value is the external memory's business, and
this model takes the little-endian memory that R74 assumes (log entry 2). -/

namespace Sys2Proof.Machine

/-- What an address that the list does not hold reads as.  DESIGN CHOICE (log entry 2), unsafe: R70 leaves the
contents of memory to the external memory; 0 is what the memory of `95_test_vectors.md` returns. -/
def Memory.unlisted : Byte := 0#8

/-- The byte at an address. -/
def Memory.read : List Host.Cell → Nat → Byte
  | [], _ => Memory.unlisted
  | c :: m, a => if c.1 = a then c.2 else Memory.read m a

/-- The cells of one byte at one address: none when it is what an unlisted address reads as. -/
def Memory.cell (a : Nat) (v : Byte) : List Host.Cell :=
  if v = Memory.unlisted then [] else [(a, v)]

/-- Writes one byte, keeping the canonical form. -/
def Memory.write : List Host.Cell → Nat → Byte → List Host.Cell
  | [], a, v => Memory.cell a v
  | c :: m, a, v =>
    if a < c.1 then Memory.cell a v ++ c :: m
    else if a = c.1 then Memory.cell a v ++ m
    else c :: Memory.write m a v

/-- Every listed address is above `lo` and below 2^32, addresses rise strictly, and no cell holds what an unlisted
address reads as. -/
def Memory.wfFrom (lo : Nat) : List Host.Cell → Bool
  | [] => true
  | c :: m => decide (lo ≤ c.1) && decide (c.1 < 4294967296) && decide (c.2 ≠ Memory.unlisted) && Memory.wfFrom (c.1 + 1) m

/-- The canonical form of a memory. -/
def Memory.wf (m : List Host.Cell) : Bool := Memory.wfFrom 0 m

/-- The byte at a 32-bit address. -/
def Memory.byteAt (m : List Host.Cell) (a : Word) : Byte := Memory.read m a.toNat

/-- The width in bytes, as a distance between addresses. -/
def Width.bytes : Width → Word
  | .byte => 1#32
  | .half => 2#32
  | .word => 4#32

/-- The low bits of a word that a value of the width has, the others zero. -/
def Width.trim (n : Width) (v : Word) : Word :=
  match n with
  | .byte => 0#24 ++ v.extractLsb' 0 8
  | .half => 0#16 ++ v.extractLsb' 0 16
  | .word => v

/-- The little-endian value of the width at an address, zero-extended (R74, R72).  Addresses are taken modulo 2^32
(R11; log entry 4). -/
def Memory.load (m : List Host.Cell) (a : Word) (n : Width) : Word :=
  match n with
  | .byte => 0#24 ++ Memory.byteAt m a
  | .half => 0#16 ++ Memory.byteAt m (a + 1#32) ++ Memory.byteAt m a
  | .word => Memory.byteAt m (a + 3#32) ++ Memory.byteAt m (a + 2#32) ++ Memory.byteAt m (a + 1#32)
      ++ Memory.byteAt m a

/-- Writes byte `k` of a value at address `a + k`. -/
def Memory.storeByte (m : List Host.Cell) (a v : Word) (k : Nat) : List Host.Cell :=
  Memory.write m (a + BitVec.ofNat 32 k).toNat (v.extractLsb' (8 * k) 8)

/-- Writes the little-endian value of the width at an address (R74). -/
def Memory.store (m : List Host.Cell) (a : Word) (n : Width) (v : Word) : List Host.Cell :=
  match n with
  | .byte => Memory.storeByte m a v 0
  | .half => Memory.storeByte (Memory.storeByte m a v 0) a v 1
  | .word => Memory.storeByte (Memory.storeByte (Memory.storeByte (Memory.storeByte m a v 0) a v 1) a v 2) a v 3

end Sys2Proof.Machine
end

