-- ==== Sys2Proof/Machine/State.lean ====
section
/-! DEFINITION. The state of SEB (`10_state.md`), the reasons a step can stop, and the state after reset (R49).

Every field is plain data.  A field that is the model's own, not the spec's, says so. -/

namespace Sys2Proof.Machine

/-- A pending event: a task and the cycle it is due at (R21). -/
structure Event where
  /-- The TaskId. -/
  task : TaskId
  /-- The absolute cycle on the `now` axis. -/
  due : Cycle
deriving DecidableEq, Repr

/-- The five banks with slots and a saved-status register of their own (R30, R34). -/
inductive PrivBank where
  /-- Fast-interrupt. -/
  | fiq
  /-- Interrupt. -/
  | irq
  /-- Supervisor. -/
  | svc
  /-- Abort. -/
  | abt
  /-- Undefined. -/
  | und
deriving DecidableEq, Repr

/-- The six banks (R30). -/
inductive Bank where
  /-- The bank of the modes USR and SYS. -/
  | normal
  /-- A banked mode's own. -/
  | priv (b : PrivBank)
deriving DecidableEq, Repr

/-- One CPU context (R26 to R36). -/
structure CpuContext where
  /-- `ready_at` (R27). -/
  readyAt : Cycle
  /-- `halted`, bit 0 `WAIT_IRQ` (R28). -/
  halted : BitVec 8
  /-- `N[0..14]`; `N[15]` is `pc` (R30). -/
  normal : Vector Word 15
  /-- `F[8..14]` (R30). -/
  fiq : Vector Word 7
  /-- `I[13..14]` (R30). -/
  irq : Vector Word 2
  /-- `S[13..14]` (R30). -/
  svc : Vector Word 2
  /-- `A[13..14]` (R30). -/
  abt : Vector Word 2
  /-- `U[13..14]` (R30). -/
  und : Vector Word 2
  /-- `pc`, the fetch-ahead register (R32). -/
  pc : Word
  /-- `status` (R33). -/
  status : Word
  /-- `saved_status[FIQ]` (R34). -/
  savedFiq : Word
  /-- `saved_status[IRQ]` (R34). -/
  savedIrq : Word
  /-- `saved_status[SVC]` (R34). -/
  savedSvc : Word
  /-- `saved_status[ABT]` (R34). -/
  savedAbt : Word
  /-- `saved_status[UND]` (R34). -/
  savedUnd : Word
  /-- `pipe[0]`, the opcode about to execute (R35). -/
  pipe0 : Word
  /-- `pipe[1]`, the next prefetched opcode (R35). -/
  pipe1 : Word
  /-- `exc_base` (R36). -/
  excBase : Word
deriving DecidableEq, Repr

/-- The interrupt state of one symmetric core (R38, R39, R41). -/
structure SymIrq where
  /-- `local_enable` (R38). -/
  localEnable : Bool
  /-- `pend`, one bit for each type (R39). -/
  pend : BitVec 128
  /-- `enab` (R39). -/
  enab : BitVec 128
  /-- `active` (R39). -/
  active : BitVec 128
  /-- `src`, the last sender of each software-generated type (R41). -/
  src : Vector (BitVec 2) 16
deriving DecidableEq, Repr

/-- The lifecycle flags of one extra core (R43). -/
structure ExtraCore where
  /-- `started`. -/
  started : Bool
  /-- `xrunning`. -/
  xrunning : Bool
  /-- `shutdown_pending`. -/
  shutdownPending : Bool
deriving DecidableEq, Repr

/-- Who is acting, and how far the engine's loop has come (R6, R7, R141, R142, R145, R125).  The spec gives this as
the position in its pseudocode; the model holds it as data. -/
inductive Phase where
  /-- The reset sequence waits for `BOOT_IMAGE_OK` (R291 step 1, R292). -/
  | inReset
  /-- The engine is idle: the host may issue commands (R91 (c)). -/
  | idle
  /-- The engine is about to test `running` (R141). -/
  | loopTop
  /-- The engine is about to test the head of the queue, between two passes (R142). -/
  | passTop
  /-- A pass is in progress and these cores are still to be visited (R142, R143). -/
  | visit (rest : List CoreId)
  /-- The executor of core `c` is running `opcode`; `rest` is still to be visited (R145, R150). -/
  | inStep (c : CoreId) (opcode : Word) (rest : List CoreId)
  /-- The event phase is about to test the head of the queue (R125, R155). -/
  | eventPhase
  /-- The external callback of a peripheral task is running (R126). -/
  | callback (task : TaskId)
deriving DecidableEq, Repr

/-- What SEB shows the rest of the machine (R51, R70): one entry of the model's trace. -/
inductive Output where
  /-- `yield`: control is with the host (R51 (a), R141). -/
  | yield
  /-- `memcfg_update(v)` (R51 (b), R211). -/
  | memcfgUpdate (v : Word)
  /-- `rebase_strobe(delta)` (R51 (c), R129). -/
  | rebaseStrobe (delta : Cycle)
  /-- The call of an external task callback (R51 (d), R126). -/
  | callback (task : TaskId)
  /-- The call of `Exec(c, opcode)` (R51 (e), R146). -/
  | execCall (c : CoreId) (opcode : Word)
  /-- `MemRead(c, addr, n)` and what it answered (R70). -/
  | memRead (c : CoreId) (addr : Word) (n : Width) (value : Word)
  /-- `MemWrite(c, addr, n, value)` (R70). -/
  | memWrite (c : CoreId) (addr : Word) (n : Width) (value : Word)
  /-- A callback's read of the external memory, and what it answered (R76). -/
  | externalRead (addr : Word) (n : Width) (value : Word)
  /-- A callback's external memory effect (R23). -/
  | externalWrite (addr : Word) (n : Width) (value : Word)
deriving DecidableEq, Repr

/-- Why the machine stops where the spec gives it no way on. -/
inductive Fault where
  /-- Raised by the engine when it needs `queue[0]` and the queue is empty.  N35: the spec gives no behaviour, and
  invariant I-2 of R50 excludes the case.  Safe: no behaviour of the hardware is claimed. -/
  | emptyQueue
  /-- Raised by the engine when the executor returns a cost of 0 or above 2^31 - 1, outside its contract (R150 (c);
  U18: fault).  Safe: no behaviour of the hardware is claimed. -/
  | executorCost
  /-- Raised by the engine when the executor returns `Unrecognized` after it has issued something that changed state,
  outside its contract (R150 (c); U18: fault).  Safe: no behaviour of the hardware is claimed. -/
  | executorUnrecognized
deriving DecidableEq, Repr

/-- Why a step has no meaning. -/
inductive Refusal where
  /-- Raised by an arm of `exec` whose instruction has no meaning yet.  Safe: nothing is claimed of it. -/
  | notModelled (mnemonic : String)
  /-- Raised by `T_PERIPHERAL` for a TaskId from `N_TASKS` up, which is bound to no callback.  R103: such an event
  "cannot exist".  Safe: no behaviour of the hardware is claimed. -/
  | unboundTask (task : TaskId)
deriving DecidableEq, Repr

/-- The whole state: "all the state of this file is that one value" (R48). -/
structure State where
  /-- The OPEN parameters (R10): no operation writes them.  The model's own field: the step takes one argument. -/
  params : Params
  /-- The input `BOOT_IMAGE_OK` (R292): no operation writes it. -/
  bootImageOk : Bool
  /-- `now` (R20). -/
  now : Cycle
  /-- `queue`, the head first (R22). -/
  queue : List Event
  /-- `running` (R24). -/
  running : Bool
  /-- `four_core` (R25). -/
  fourCore : Bool
  /-- The five CPU contexts (R26). -/
  cores : Vector CpuContext 5
  /-- `mgmt_pending` (R37). -/
  mgmtPending : Word
  /-- `mgmt_enable` (R37). -/
  mgmtEnable : Word
  /-- `dist_enable` (R38). -/
  distEnable : Bool
  /-- The interrupt state of the symmetric cores (R38, R39, R41). -/
  sym : Vector SymIrq 4
  /-- `route[t]`, bit `c` for symmetric core `c` (R40). -/
  route : Vector (BitVec 4) 128
  /-- `guard[t]` (R42). -/
  guard : Vector Bool 5
  /-- The extra cores 2 and 3, at positions 0 and 1 (R43). -/
  extra : Vector ExtraCore 2
  /-- `perf_cfg` (R44). -/
  perfCfg : Word
  /-- `perf_eff` (R44). -/
  perfEff : Word
  /-- `err_flags` (R45). -/
  errFlags : BitVec 16
  /-- `err_last` (R45). -/
  errLast : OpWord
  /-- `resp` (R46). -/
  resp : BitVec 64
  /-- The position in the engine's loop (R141, R142, R145, R125). -/
  phase : Phase
  /-- Model's own: the bits of `err_flags` that a `fault(E)` has set, the mark of R11 (log entry 13). -/
  faultMarks : BitVec 16
  /-- The plain part of the external memory (R70, R71), in canonical form. -/
  mem : List Host.Cell
  /-- Model's own: the words the host will issue, the next one first (R91 (c)). -/
  hostIn : List OpWord
  /-- Model's own: what the operations of the CPU step or of the external callback in progress have answered, the latest
  first (R150 (d), R126; log entries 5 and 6). -/
  answers : Answers
  /-- Model's own: the executor of the CPU step in progress has issued something that changed state (R150 (c)). -/
  stepChanged : Bool
  /-- Model's own: what SEB has shown the rest of the machine, the latest first (R51). -/
  out : List Output
  /-- Model's own: how many free values have been used. -/
  freeCount : Nat
deriving DecidableEq, Repr

/-- The entry point of a core after reset: `BOOT_PC[c] & ~3` (R291). -/
def bootEntry (p : Params) (c : CoreId) : Word := p.bootPc[c] &&& ~~~3#32

/-- The CPU context of core `c` after reset (R49), its pipeline filled from the plain memory `m`.  General registers
and saved-status registers, which R49 leaves unspecified, are 0: DESIGN CHOICE (log entry 11), unsafe. -/
def CpuContext.reset (p : Params) (m : List Host.Cell) (c : CoreId) : CpuContext where
  readyAt := 0#64
  halted := if c = 2 ∨ c = 3 then 0x01#8 else 0x00#8
  normal := Vector.replicate 15 0#32
  fiq := Vector.replicate 7 0#32
  irq := Vector.replicate 2 0#32
  svc := Vector.replicate 2 0#32
  abt := Vector.replicate 2 0#32
  und := Vector.replicate 2 0#32
  pc := bootEntry p c + 4#32
  status := 0x000000D3#32
  savedFiq := 0#32
  savedIrq := 0#32
  savedSvc := 0#32
  savedAbt := 0#32
  savedUnd := 0#32
  pipe0 := Memory.load m (bootEntry p c) .word
  pipe1 := Memory.load m (bootEntry p c + 4#32) .word
  excBase := p.excBaseReset[c]

/-- The two fetches of core `c` in the reset sequence, the later one first (R291 step 3). -/
def resetFetches (p : Params) (m : List Host.Cell) (c : CoreId) : List Output :=
  [.memRead c (bootEntry p c + 4#32) .word (Memory.load m (bootEntry p c + 4#32) .word),
   .memRead c (bootEntry p c) .word (Memory.load m (bootEntry p c) .word)]

/-- The state right after power-on reset (R49, R291) of a machine with the parameters `p` whose external memory holds
`m` and has no window.  `resp` is 0: DESIGN CHOICE (log entry 11), unsafe. -/
def State.resetWith (p : Params) (m : List Host.Cell) : State where
  params := p
  bootImageOk := true
  now := 0#64
  queue := [⟨0#8, p.rebaseHorizon⟩]
  running := false
  fourCore := false
  cores := #v[CpuContext.reset p m 0, CpuContext.reset p m 1, CpuContext.reset p m 2, CpuContext.reset p m 3,
    CpuContext.reset p m 4]
  mgmtPending := 0#32
  mgmtEnable := 0#32
  distEnable := false
  sym := Vector.replicate 4 ⟨false, 0#128, 0#128, 0#128, Vector.replicate 16 0#2⟩
  route := Vector.replicate 128 0#4
  guard := Vector.replicate 5 false
  extra := Vector.replicate 2 ⟨false, false, false⟩
  perfCfg := 0#32
  perfEff := 0#32
  errFlags := 0#16
  errLast := 0#96
  resp := 0#64
  phase := .idle
  faultMarks := 0#16
  mem := m
  hostIn := []
  answers := []
  stepChanged := false
  out := resetFetches p m 4 ++ resetFetches p m 3 ++ resetFetches p m 2 ++ resetFetches p m 1 ++ resetFetches p m 0
  freeCount := 0

/-- The state right after reset, with the parameters' defaults and a memory that lists nothing. -/
def State.reset : State := State.resetWith Params.default []

end Sys2Proof.Machine
end

