-- ==== Sys2Proof/Machine/Flags.lean ====
section
/-! DEFINITION. The status register: its fields (R33), the bank a mode selects (R31), and what exception entry makes of
it (R250, R252).  SEB has no other flags, and no operation computes one from arithmetic (R52). -/

namespace Sys2Proof.Machine

/-- `status[4:0]`, the current privilege mode (R33). -/
def modeOf (status : Word) : BitVec 5 := status.extractLsb' 0 5

/-- `status[5]`, T: the core executes the compact encoding (R33). -/
def compact (status : Word) : Bool := status.getLsbD 5

/-- `status[6]`, F: fast-interrupt disable (R33). -/
def fiqMasked (status : Word) : Bool := status.getLsbD 6

/-- `status[7]`, I: interrupt disable (R33). -/
def irqMasked (status : Word) : Bool := status.getLsbD 7

/-- `Bank(mode)`, or none for an invalid mode (R31, R176). -/
def bankOf (mode : BitVec 5) : Option Bank :=
  match mode with
  | 0x10#5 => some .normal
  | 0x11#5 => some (.priv .fiq)
  | 0x12#5 => some (.priv .irq)
  | 0x13#5 => some (.priv .svc)
  | 0x17#5 => some (.priv .abt)
  | 0x1B#5 => some (.priv .und)
  | 0x1F#5 => some .normal
  | _ => none

/-- A mode of the table of R31. -/
def validMode (mode : BitVec 5) : Bool := (bankOf mode).isSome

/-- `W`: the width of the current encoding (R105). -/
def fetchWidth (status : Word) : Width := if compact status then .half else .word

/-- The exception types of R250, the reserved code 5 left out. -/
inductive Exc where
  /-- Code 0. -/
  | reset
  /-- Code 1. -/
  | undefined
  /-- Code 2. -/
  | supervisorCall
  /-- Code 3. -/
  | prefetchAbort
  /-- Code 4. -/
  | dataAbort
  /-- Code 6, the only one the controller raises (R200). -/
  | irq
  /-- Code 7. -/
  | fiq
deriving DecidableEq, Repr

/-- The exception type of a code; none for the reserved code 5 (R250, R182). -/
def excOf (code : BitVec 3) : Option Exc :=
  match code with
  | 0#3 => some .reset
  | 1#3 => some .undefined
  | 2#3 => some .supervisorCall
  | 3#3 => some .prefetchAbort
  | 4#3 => some .dataAbort
  | 6#3 => some .irq
  | 7#3 => some .fiq
  | _ => none

/-- `VecOffset(x)` (R250). -/
def vecOffset : Exc → Word
  | .reset => 0x00#32
  | .undefined => 0x04#32
  | .supervisorCall => 0x08#32
  | .prefetchAbort => 0x0C#32
  | .dataAbort => 0x10#32
  | .irq => 0x18#32
  | .fiq => 0x1C#32

/-- `ExcMode(x)` (R250). -/
def excMode : Exc → BitVec 5
  | .reset => 0x13#5
  | .undefined => 0x1B#5
  | .supervisorCall => 0x13#5
  | .prefetchAbort => 0x17#5
  | .dataAbort => 0x17#5
  | .irq => 0x12#5
  | .fiq => 0x11#5

/-- `Bank(ExcMode(x))`. -/
def excBank : Exc → PrivBank
  | .reset => .svc
  | .undefined => .und
  | .supervisorCall => .svc
  | .prefetchAbort => .abt
  | .dataAbort => .abt
  | .irq => .irq
  | .fiq => .fiq

/-- The "sets F" column of R250. -/
def excMasksFiq : Exc → Bool
  | .reset | .fiq => true
  | .undefined | .supervisorCall | .prefetchAbort | .dataAbort | .irq => false

/-- The status after entry (R252): the mode `ExcMode(x)`, T 0, I 1, F 1 for RESET and FIQ and unchanged otherwise,
bits 31:8 unchanged. -/
def entryStatus (old : Word) (x : Exc) : Word :=
  old.extractLsb' 8 24 ++ 1#1 ++ BitVec.ofBool (fiqMasked old || excMasksFiq x) ++ 0#1 ++ excMode x

end Sys2Proof.Machine
end

