-- ==== Sys2Proof/Machine/Operands.lean ====
section
/-! DEFINITION. Operand forms: which values of an operand field are legal (R96 to R99), which physical slot a logical
register names (R31), and how a slot is read and written. -/

namespace Sys2Proof.Machine

/-! ## Legal values of the fields -/

/-- Field `core` where 0..4 are legal (R96). -/
def coreOf (a : BitVec 8) : Option CoreId := if h : a.toNat < 5 then some ⟨a.toNat, h⟩ else none

/-- Field `core` where 0..3 are legal (R96). -/
def symOf (a : BitVec 8) : Option SymId := if h : a.toNat < 4 then some ⟨a.toNat, h⟩ else none

/-- Field `core` where 2..3 are legal (R96): the position of the extra core in `State.extra`. -/
def extraOf (a : BitVec 8) : Option (Fin 2) :=
  match a with
  | 2#8 => some 0
  | 3#8 => some 1
  | _ => none

/-- A symmetric core as a core. -/
def symCore (c : SymId) : CoreId := c.castSucc

/-- The management core (R26). -/
def mgmtCore : CoreId := 4

/-- Field `type` in the symmetric-core domain: 0..127 (R97). -/
def symTypeOf (t : BitVec 16) : Option IrqType := if h : t.toNat < 128 then some ⟨t.toNat, h⟩ else none

/-- Field `type` when the target is the management core: 0..31 (R97). -/
def mgmtTypeOf (t : BitVec 16) : Option (Fin 32) := if h : t.toNat < 32 then some ⟨t.toNat, h⟩ else none

/-- Field `type` of `SGI`: 0..15 (R97, R98). -/
def sgiTypeOf (t : BitVec 10) : Option (Fin 16) := if h : t.toNat < 16 then some ⟨t.toNat, h⟩ else none

/-- Field `reason`: the number of a bit of the halted mask (R97). -/
def reasonOf (r : BitVec 8) : Option (Fin 8) := if h : r.toNat < 8 then some ⟨r.toNat, h⟩ else none

/-- `LegalTask(task)`: `T_END_FRAME`, `T_CORE_CONFIG`, or a peripheral task below `N_TASKS` (R123). -/
def legalTask (nTasks : Nat) (task : TaskId) : Bool :=
  decide (task = 1#8) || decide (task = 2#8) || (decide (8#8 ≤ task) && decide (task.toNat < nTasks))

/-- The target set of an `SGI` from core `i`, or none for an unrecognized mode (R215, R98). -/
def sgiTargets (i : SymId) (mask : BitVec 4) (mode : BitVec 2) : Option (BitVec 4) :=
  match mode with
  | 0#2 => some mask
  | 1#2 => some (0b1111#4 &&& ~~~(1#4 <<< i.val))
  | 2#2 => some (1#4 <<< i.val)
  | _ => none

/-! ## Bits -/

/-- The vector with bit `i` set. -/
def withBit {n : Nat} (v : BitVec n) (i : Nat) : BitVec n := v ||| (1#n <<< i)

/-- The vector with bit `i` cleared. -/
def withoutBit {n : Nat} (v : BitVec n) (i : Nat) : BitVec n := v &&& ~~~(1#n <<< i)

/-- The lowest index whose bit is set (R226). -/
def lowestBit (v : BitVec 128) : Option IrqType := (List.finRange 128).find? (fun t => v.getLsbD t.val)

/-! ## Physical slots -/

/-- A physical register slot (R30); `pc` is `N[15]`. -/
inductive Slot where
  /-- `N[i]`. -/
  | normal (i : Fin 15)
  /-- `F[8 + i]`. -/
  | fiq (i : Fin 7)
  /-- `I[13 + i]`. -/
  | irq (i : Fin 2)
  /-- `S[13 + i]`. -/
  | svc (i : Fin 2)
  /-- `A[13 + i]`. -/
  | abt (i : Fin 2)
  /-- `U[13 + i]`. -/
  | und (i : Fin 2)
  /-- `N[15]`. -/
  | pc
deriving DecidableEq, Repr

/-- The slot of index 13 + `i` in a bank (R31). -/
def highSlot (b : Bank) (i : Fin 2) : Slot :=
  match b with
  | .normal => .normal (i.natAdd 13)
  | .priv .fiq => .fiq (i.natAdd 5)
  | .priv .irq => .irq i
  | .priv .svc => .svc i
  | .priv .abt => .abt i
  | .priv .und => .und i

/-- The slot of index 8 + `i`, `i` below 5, in a bank (R31). -/
def midSlot (b : Bank) (i : Fin 5) : Slot :=
  match b with
  | .priv .fiq => .fiq (i.castAdd 2)
  | _ => .normal ⟨8 + i.val, by omega⟩

/-- `Phys(mode, index)` for a mode of bank `b` (R31). -/
def phys (b : Bank) (index : BitVec 4) : Slot :=
  if h8 : index.toNat < 8 then .normal ⟨index.toNat, by omega⟩
  else if h13 : index.toNat < 13 then midSlot b ⟨index.toNat - 8, by omega⟩
  else if h15 : index.toNat < 15 then highSlot b ⟨index.toNat - 13, by omega⟩
  else .pc

/-- The value of a slot. -/
def CpuContext.readSlot (k : CpuContext) : Slot → Word
  | .normal i => k.normal[i]
  | .fiq i => k.fiq[i]
  | .irq i => k.irq[i]
  | .svc i => k.svc[i]
  | .abt i => k.abt[i]
  | .und i => k.und[i]
  | .pc => k.pc

/-- The context with one slot written and nothing else. -/
def CpuContext.writeSlot (k : CpuContext) (p : Slot) (v : Word) : CpuContext :=
  match p with
  | .normal i => { k with normal := k.normal.set i v }
  | .fiq i => { k with fiq := k.fiq.set i v }
  | .irq i => { k with irq := k.irq.set i v }
  | .svc i => { k with svc := k.svc.set i v }
  | .abt i => { k with abt := k.abt.set i v }
  | .und i => { k with und := k.und.set i v }
  | .pc => { k with pc := v }

/-- `saved_status[b]` (R34). -/
def CpuContext.saved (k : CpuContext) : PrivBank → Word
  | .fiq => k.savedFiq
  | .irq => k.savedIrq
  | .svc => k.savedSvc
  | .abt => k.savedAbt
  | .und => k.savedUnd

/-- The context with `saved_status[b]` written and nothing else. -/
def CpuContext.withSaved (k : CpuContext) (b : PrivBank) (v : Word) : CpuContext :=
  match b with
  | .fiq => { k with savedFiq := v }
  | .irq => { k with savedIrq := v }
  | .svc => { k with savedSvc := v }
  | .abt => { k with savedAbt := v }
  | .und => { k with savedUnd := v }

/-- `NextAddr(c) = pc - W`, the address of the instruction in slot 0 at a boundary (R32, R148). -/
def CpuContext.nextAddr (k : CpuContext) : Word := k.pc - (fetchWidth k.status).bytes

/-- `halted != 0` (R28). -/
def CpuContext.isHalted (k : CpuContext) : Bool := k.halted != 0#8

end Sys2Proof.Machine
end

