-- ==== Sys2Proof/Machine/Ops.lean ====
section
/-! DEFINITION. The named operations the meanings share: the error log and the response register, the contexts, the
memory port and the pipeline, the event queue, the interrupt line and its delivery, halting, and taking an exception
and returning from one. -/

namespace Sys2Proof.Machine

/-- What a meaning answers. -/
abbrev Result := Host.Outcome State Fault Refusal

/-! ## Errors and responses -/

/-- The bits of `err_flags` (R45, R262). -/
inductive Err where
  /-- Bit 0. -/
  | badOp
  /-- Bit 1. -/
  | badTask
  /-- Bit 2. -/
  | badCore
  /-- Bit 3. -/
  | badIrqType
  /-- Bit 4. -/
  | badSgiMode
  /-- Bit 5. -/
  | badReason
  /-- Bit 6. -/
  | undefInstr
  /-- Bit 7. -/
  | schedOverflow
  /-- Bit 8. -/
  | badMode
  /-- Bit 9. -/
  | badExc
  /-- Bit 10. -/
  | badSpsr
deriving DecidableEq, Repr

/-- The number of an error's bit (R45). -/
def Err.bit : Err → Nat
  | .badOp => 0
  | .badTask => 1
  | .badCore => 2
  | .badIrqType => 3
  | .badSgiMode => 4
  | .badReason => 5
  | .undefInstr => 6
  | .schedOverflow => 7
  | .badMode => 8
  | .badExc => 9
  | .badSpsr => 10

/-- `reject(E)`: set the bit, keep the offending word, "change nothing else" (R11, R262). -/
def State.reject (s : State) (e : Err) (w : OpWord) : State :=
  { s with errFlags := withBit s.errFlags e.bit, errLast := w }

/-- `fault(E)`: `reject(E)`, with the mark of R11 set in the model's own field.  The machine goes on, as R262 says
("No error changes a core's control flow, stops the engine"); DESIGN CHOICE (log entry 13). -/
def State.markFault (s : State) (e : Err) (w : OpWord) : State :=
  { s.reject e w with faultMarks := withBit s.faultMarks e.bit }

/-- `f` applied to the next state, if there is one. -/
def onNext (r : Result) (f : State → State) : Result :=
  match r with
  | .next t => .next (f t)
  | .fault e => .fault e
  | .refused e => .refused e

/-- An operation that is rejected. -/
def State.rejected (s : State) (e : Err) (i : Instr) : Result := .next (s.reject e (opWord i))

/-- An operation that is a `fault(E)`. -/
def State.faulted (s : State) (e : Err) (i : Instr) : Result := .next (s.markFault e (opWord i))

/-- `resp` written by an operation that returns a value (R46). -/
def State.respond (s : State) (v : BitVec 64) : State := { s with resp := v }

/-- `resp` after an operation that returns nothing: unspecified (R100, U2), a free value. -/
def State.respOpen (s : State) : State :=
  { s with resp := Config.openResp s.freeCount, freeCount := s.freeCount + 1 }

/-- One more entry in the trace of outputs (R51). -/
def State.emit (s : State) (o : Output) : State := { s with out := o :: s.out }

/-! ## Contexts -/

/-- The context of core `c`. -/
def State.core (s : State) (c : CoreId) : CpuContext := s.cores[c]

/-- The state with the context of core `c` replaced. -/
def State.setCore (s : State) (c : CoreId) (k : CpuContext) : State := { s with cores := s.cores.set c k }

/-- The interrupt state of symmetric core `c`. -/
def State.symIrq (s : State) (c : SymId) : SymIrq := s.sym[c]

/-- The state with the interrupt state of symmetric core `c` replaced. -/
def State.setSymIrq (s : State) (c : SymId) (k : SymIrq) : State := { s with sym := s.sym.set c k }

/-- The state with the lifecycle flags of an extra core replaced. -/
def State.setExtra (s : State) (e : Fin 2) (k : ExtraCore) : State := { s with extra := s.extra.set e k }

/-! ## The memory port (R70) -/

/-- Core `c`'s access at `a` is not routed to plain memory.  The windows are the same before and after a
`memcfg_update`: DESIGN CHOICE (log entry 29), unsafe. -/
def State.inWindow (s : State) (c : CoreId) (a : Word) : Bool :=
  s.params.windows.any (fun w => w.cores.getLsbD c.val && decide (w.lo ≤ a) && decide (a ≤ w.hi))

/-- What `MemRead(c, a, n)` answers: the plain memory's value, or a free value in a window. -/
def State.memAnswer (s : State) (c : CoreId) (a : Word) (n : Width) : Word :=
  if s.inWindow c a then n.trim (Config.openRead s.freeCount) else Memory.load s.mem a n

/-- The state after `MemRead(c, a, n)`: the access stands in the trace, and a free value is used up in a window. -/
def State.afterRead (s : State) (c : CoreId) (a : Word) (n : Width) : State :=
  { s with
    out := .memRead c a n (s.memAnswer c a n) :: s.out
    freeCount := if s.inWindow c a then s.freeCount + 1 else s.freeCount }

/-- The state after `MemWrite(c, a, n, v)`. -/
def State.memWrite (s : State) (c : CoreId) (a : Word) (n : Width) (v : Word) : State :=
  { s with
    out := .memWrite c a n (n.trim v) :: s.out
    mem := if s.inWindow c a then s.mem else Memory.store s.mem a n v }

/-- Some core's view does not route the address to plain memory. -/
def State.inSomeWindow (s : State) (a : Word) : Bool :=
  s.params.windows.any (fun w => decide (w.lo ≤ a) && decide (a ≤ w.hi))

/-- What a callback's read answers: the plain memory's value, or a free value in a window (R70, R76; log entry 6). -/
def State.externalAnswer (s : State) (a : Word) (n : Width) : Word :=
  if s.inSomeWindow a then n.trim (Config.openRead s.freeCount) else Memory.load s.mem a n

/-- The state after a callback's read of the external memory (R76). -/
def State.externalRead (s : State) (a : Word) (n : Width) : State :=
  { s with
    out := .externalRead a n (s.externalAnswer a n) :: s.out
    freeCount := if s.inSomeWindow a then s.freeCount + 1 else s.freeCount }

/-- The state after a callback's external memory effect (R23). -/
def State.externalWrite (s : State) (a : Word) (n : Width) (v : Word) : State :=
  { s with out := .externalWrite a n (n.trim v) :: s.out, mem := Memory.store s.mem a n v }

/-- The byte of the plain memory at an address. -/
def State.byteAt (s : State) (a : Word) : Byte := Memory.byteAt s.mem a

/-! ## The pipeline -/

/-- The pipeline advance of R145 and R147: slot 1 moves to slot 0, `pc` steps by W, slot 1 is fetched from it. -/
def State.pipeAdvance (s : State) (c : CoreId) : State :=
  let k := s.core c
  let w := fetchWidth k.status
  let pc := k.pc + w.bytes
  (s.afterRead c pc w).setCore c { k with pipe0 := k.pipe1, pc := pc, pipe1 := s.memAnswer c pc w }

/-- The aligned address `Flush` refills from: `pc & ~(W - 1)` (R149, R75). -/
def CpuContext.flushAddr (k : CpuContext) : Word := k.pc &&& ~~~((fetchWidth k.status).bytes - 1#32)

/-- `Flush(c)`: two fetches from the aligned `pc`, the lower address first (R149). -/
def State.flush (s : State) (c : CoreId) : State :=
  let k := s.core c
  let w := fetchWidth k.status
  let a := k.flushAddr
  let s1 := s.afterRead c a w
  (s1.afterRead c (a + w.bytes) w).setCore c
    { k with pipe0 := s.memAnswer c a w, pipe1 := s1.memAnswer c (a + w.bytes) w, pc := a + w.bytes }

/-- `pc[c] <- target; Flush(c)` (R172). -/
def State.branch (s : State) (c : CoreId) (target : Word) : State :=
  (s.setCore c { s.core c with pc := target }).flush c

/-! ## The event queue -/

/-- Insertion before the first event that is due later: the upper-bound position of R121. -/
def insertEvent (e : Event) : List Event → List Event
  | [] => [e]
  | x :: q => if e.due < x.due then e :: x :: q else x :: insertEvent e q

/-- `Schedule(task, delay)` (R121).  `now + delay` is exact wherever the invariant of R132 holds (log entry 14). -/
def State.schedule (s : State) (task : TaskId) (delay : Cycle) : State :=
  { s with queue := insertEvent ⟨task, s.now + delay⟩ s.queue }

/-! ## The interrupt lines -/

/-- The delivery task of target `t`: TaskId 3 + t (R93, R202). -/
def deliverTask (t : CoreId) : TaskId := 3#8 + BitVec.ofNat 8 t.val

/-- `Kick(t)`: schedule a delivery unless one is in flight (R202). -/
def State.kick (s : State) (t : CoreId) : State :=
  if s.guard[t] then s
  else { s.schedule (deliverTask t) s.params.irqLatency with guard := s.guard.set t true }

/-- `Line(c)` for a symmetric core (R204). -/
def State.symLine (s : State) (c : SymId) : Bool :=
  s.distEnable && (s.symIrq c).localEnable && ((s.symIrq c).pend &&& (s.symIrq c).enab) != 0#128

/-- `Line(4)` (R204). -/
def State.mgmtLine (s : State) : Bool := (s.mgmtPending &&& s.mgmtEnable) != 0#32

/-- `Line(t)` (R204). -/
def State.line (s : State) (t : CoreId) : Bool :=
  if h : t.val < 4 then s.symLine ⟨t.val, h⟩ else s.mgmtLine

/-- `IrqCheck(t)` (R207). -/
def State.irqCheck (s : State) (t : CoreId) : State := if s.line t then s.kick t else s

/-- Sets `pend[c][type]` if the routing table lists the core, and kicks (R201). -/
def State.sendSym (s : State) (c : SymId) (type : IrqType) : State :=
  if s.route[type].getLsbD c.val then
    (s.setSymIrq c { s.symIrq c with pend := withBit (s.symIrq c).pend type.val }).kick (symCore c)
  else s

/-- `SendIrq(5, type)`: to every routed symmetric core, in ascending order (R201). -/
def State.broadcast (s : State) (type : IrqType) : State :=
  (((s.sendSym 0 type).sendSym 1 type).sendSym 2 type).sendSym 3 type

/-- One target of an `SGI` from core `i`: pending bit, source, kick (R215). -/
def State.sgiTo (s : State) (i : SymId) (type : Fin 16) (targets : BitVec 4) (c : SymId) : State :=
  if targets.getLsbD c.val then
    (s.setSymIrq c
      { s.symIrq c with
        pend := withBit (s.symIrq c).pend type.val
        src := (s.symIrq c).src.set type (BitVec.ofNat 2 i.val) }).kick (symCore c)
  else s

/-- The targets of an `SGI` in ascending order (R215). -/
def State.sgiSend (s : State) (i : SymId) (type : Fin 16) (targets : BitVec 4) : State :=
  (((s.sgiTo i type targets 0).sgiTo i type targets 1).sgiTo i type targets 2).sgiTo i type targets 3

/-! ## Taking an exception and returning from one -/

/-- The link register value of entry: `pc + (T ? 2 : 0)` (R252, R253). -/
def CpuContext.entryLink (k : CpuContext) : Word := k.pc + (if compact k.status then 2#32 else 0#32)

/-- The context after the register writes of `ExcEntry`, before its `Flush` (R252): status, saved status and link
register of the target mode's bank, and `pc` at the vector. -/
def CpuContext.enter (k : CpuContext) (x : Exc) : CpuContext :=
  { ({ k with status := entryStatus k.status x }.withSaved (excBank x) k.status).writeSlot
      (highSlot (.priv (excBank x)) 1) k.entryLink with
    pc := k.excBase + vecOffset x }

/-- `ExcEntry(c, x)` (R252): the one operation that takes an exception. -/
def State.excEntry (s : State) (c : CoreId) (x : Exc) : State := (s.setCore c ((s.core c).enter x)).flush c

/-- `IrqCheck(c)` if I went from 1 to 0 (R174, R183, R207). -/
def State.irqCheckIfUnmasked (s : State) (c : CoreId) (old new : Word) : State :=
  if irqMasked old && !irqMasked new then s.irqCheck c else s

/-- The effect of `EXC_RETURN target` once the restored status `v` is known to be valid (R183). -/
def State.excReturn (s : State) (c : CoreId) (v target : Word) : State :=
  ((s.setCore c { s.core c with status := v, pc := target }).flush c).irqCheckIfUnmasked c (s.core c).status v

/-- The effect of `STATUS_WRITE value` once the mode is known to be valid (R174). -/
def State.statusWrite (s : State) (c : CoreId) (v : Word) : State :=
  let k := s.core c
  let t :=
    if modeOf v ≠ modeOf k.status ∨ compact v ≠ compact k.status then
      (s.setCore c { k with status := v, pc := k.pc - (fetchWidth k.status).bytes }).flush c
    else s.setCore c { k with status := v }
  t.irqCheckIfUnmasked c k.status v

/-! ## Halting and waking -/

/-- All four symmetric cores are halted (R210). -/
def State.clusterHalted (s : State) : Bool :=
  (s.core 0).isHalted && (s.core 1).isHalted && (s.core 2).isHalted && (s.core 3).isHalted

/-- `ClusterIdle()` (R211).  The pulse `memcfg_update` is shown to the external map (R51 (b)); that the map then routes
every address as before is a DESIGN CHOICE (log entry 29), unsafe. -/
def State.clusterIdle (s : State) : State :=
  if s.perfCfg ≠ s.perfEff then
    ({ s with perfEff := s.perfCfg }.emit (.memcfgUpdate s.perfCfg)).broadcast s.params.perfIrqType
  else s

/-- `ShutdownSeq(e)` (R212). -/
def State.shutdownSeq (s : State) (e : Fin 2) : State :=
  if s.extra[e].shutdownPending then
    let t := s.setExtra e ⟨false, false, false⟩
    if t.extra[0].started = false ∧ t.extra[1].started = false then t.schedule 2#8 0#64 else t
  else s

/-- The context with reason bit `r` set (R210). -/
def CpuContext.halt (k : CpuContext) (r : Fin 8) : CpuContext := { k with halted := withBit k.halted r.val }

/-- The cluster check of `Halt(k, r)`, made for a symmetric core only (R210). -/
def State.clusterCheck (s : State) (k : CoreId) : State :=
  if k ≠ mgmtCore ∧ s.clusterHalted = true then s.clusterIdle else s

/-- The shutdown sequence of `Halt(k, r)`, run for an extra core only (R210). -/
def State.shutdownCheck (s : State) (k : CoreId) : State :=
  match k with
  | 2 => s.shutdownSeq 0
  | 3 => s.shutdownSeq 1
  | _ => s

/-- `Halt(k, r)` (R210). -/
def State.halt (s : State) (k : CoreId) (r : Fin 8) : State :=
  ((s.setCore k ((s.core k).halt r)).clusterCheck k).shutdownCheck k

/-! ## Delivery -/

/-- The end of a delivery whose line is asserted: wake, and enter the interrupt exception if I = 0 (R205). -/
def State.wakeAndEnter (s : State) (t : CoreId) : State :=
  let w := s.setCore t { s.core t with halted := withoutBit (s.core t).halted 0 }
  if irqMasked (s.core t).status then w else w.excEntry t .irq

/-- The re-scan of a delivery (R205, R206). -/
def State.deliverLine (s : State) (t : CoreId) : State := if s.line t then s.wakeAndEnter t else s

/-- The guard of a delivery's target cleared (R205). -/
def State.clearGuard (s : State) (t : CoreId) : State := { s with guard := s.guard.set t false }

/-- A delivery to a primary core or the management core (R205). -/
def State.deliver (s : State) (t : CoreId) : State := (s.clearGuard t).deliverLine t

/-- A delivery to an extra core: withheld unless it is started, and marking it as running if it is (R205). -/
def State.deliverExtra (s : State) (e : Fin 2) (t : CoreId) : State :=
  let g := s.clearGuard t
  if s.extra[e].started then (g.setExtra e { s.extra[e] with xrunning := true }).deliverLine t else g

end Sys2Proof.Machine
end

