-- ==== Sys2Proof/Machine/Clock.lean ====
section
/-! DEFINITION. Clock and Event Queue: `SCHEDULE`, `READ_CYCLE`, `T_REBASE` (`40_clock_event_queue.md`). -/

namespace Sys2Proof.Machine

/-- `SCHEDULE task, delay` (R120, R123, R124). -/
def execSchedule (task : BitVec 8) (delay : BitVec 64) (s : State) : Result :=
  if legalTask s.params.nTasks task then
    if s.now.toNat + delay.toNat < 18446744073709551616 then .next (s.schedule task delay).respOpen
    else s.faulted .schedOverflow (.schedule task delay)
  else s.rejected .badTask (.schedule task delay)

/-- `READ_CYCLE` (R130). -/
def execReadCycle (s : State) : Result := .next (s.respond s.now)

/-- `ready_at sat- delta`: the saturating subtraction of R128. -/
def satSub (a b : Cycle) : Cycle := if b ≤ a then a - b else 0#64

/-- The rebased context of a core (R128). -/
def CpuContext.rebase (k : CpuContext) (delta : Cycle) : CpuContext := { k with readyAt := satSub k.readyAt delta }

/-- Everything `T_REBASE` does before it re-arms itself (R128): dues, ready-at cycles and `now` shifted by `now`, and
the strobe (R129). -/
def State.rebase (s : State) : State :=
  { s with
    queue := s.queue.map (fun e => { e with due := e.due - s.now })
    cores := Vector.ofFn fun c : Fin 5 => (s.core c).rebase s.now
    now := 0#64
    out := .rebaseStrobe s.now :: s.out }

/-- `T_REBASE` (R128): one indivisible transition (R313). -/
def execTRebase (s : State) : Result := .next (s.rebase.schedule 0#8 s.params.rebaseHorizon).respOpen

end Sys2Proof.Machine
end

