-- ==== Sys2Proof/Machine/Engine.lean ====
section
/-! DEFINITION. The operations of the Execution Engine: `RUN`, `T_END_FRAME`, `T_CORE_CONFIG`, and the dispatch of a
peripheral task (`41_execution_engine.md`; `40_clock_event_queue.md` R126).  The loop itself is in `Sequencer.lean`. -/

namespace Sys2Proof.Machine

/-- `RUN` (R140): set `running` and enter the loop, whose steps follow.  `resp`, which R100 leaves unspecified after
`RUN`, gets a free value here and a fresh one when `RUN` returns, at the yield: DESIGN CHOICE (log entry 9), safe. -/
def execRun (s : State) : Result := .next ({ s with running := true, phase := .loopTop }.respOpen)

/-- `T_END_FRAME` (R157). -/
def execTEndFrame (s : State) : Result := .next ({ s with running := false }.respOpen)

/-- `T_CORE_CONFIG` (R158). -/
def execTCoreConfig (s : State) : Result :=
  .next ({ s with fourCore := s.extra[0].started || s.extra[1].started }.respOpen)

/-- `T_PERIPHERAL` (R126): the external callback bound to the task is called, with no argument, and acts until it
returns. -/
def execTPeripheral (task : BitVec 8) (s : State) : Result :=
  if 8 ≤ task.toNat ∧ task.toNat < s.params.nTasks then
    .next (({ s with phase := .callback task, answers := [] }.emit (.callback task)).respOpen)
  else .refused (.unboundTask task)

end Sys2Proof.Machine
end

