-- ==== Sys2Proof/Machine/Registers.lean ====
section
/-! DEFINITION. The CPU port: general registers, program counter and status registers (`42_registers_modes.md` R170 to
R181).  No operation checks a privilege (R186). -/

namespace Sys2Proof.Machine

/-- Runs `f` on a legal core; any other value of the field is `reject(E_BAD_CORE)` (R96). -/
def State.withCore (s : State) (core : BitVec 8) (i : Instr) (f : CoreId → Result) : Result :=
  match coreOf core with
  | some c => f c
  | none => s.rejected .badCore i

/-- Runs `f` on the bank of a mode; an invalid mode is `fault(E_BAD_MODE)` (R176). -/
def State.withBank (s : State) (mode : BitVec 5) (i : Instr) (f : Bank → Result) : Result :=
  match bankOf mode with
  | some b => f b
  | none => s.faulted .badMode i

/-- The read of a logical register in a bank: `resp <- zext_64(slot)` (R170, R180). -/
def State.readBanked (s : State) (c : CoreId) (b : Bank) (index : BitVec 4) : Result :=
  .next (s.respond (0#32 ++ (s.core c).readSlot (phys b index)))

/-- The write of a logical register in a bank; index 15 is `PC_WRITE` (R171, R181). -/
def State.writeBanked (s : State) (c : CoreId) (b : Bank) (index : BitVec 4) (value : Word) : Result :=
  if index = 15#4 then .next (s.branch c value).respOpen
  else .next (s.setCore c ((s.core c).writeSlot (phys b index) value)).respOpen

/-- `REG_READ index` (R170). -/
def execRegRead (core : BitVec 8) (index : BitVec 4) (s : State) : Result :=
  s.withCore core (.regRead core index) fun c =>
    s.withBank (modeOf (s.core c).status) (.regRead core index) fun b => s.readBanked c b index

/-- `REG_WRITE index, value` (R171). -/
def execRegWrite (core : BitVec 8) (index : BitVec 4) (value : Word) (s : State) : Result :=
  s.withCore core (.regWrite core index value) fun c =>
    s.withBank (modeOf (s.core c).status) (.regWrite core index value) fun b => s.writeBanked c b index value

/-- `PC_WRITE target` (R172). -/
def execPcWrite (core : BitVec 8) (target : Word) (s : State) : Result :=
  s.withCore core (.pcWrite core target) fun c => .next (s.branch c target).respOpen

/-- `STATUS_READ` (R173). -/
def execStatusRead (core : BitVec 8) (s : State) : Result :=
  s.withCore core (.statusRead core) fun c => .next (s.respond (0#32 ++ (s.core c).status))

/-- `STATUS_WRITE value` (R174, R176).  That the core is checked first is a DESIGN CHOICE (log entry 30). -/
def execStatusWrite (core : BitVec 8) (value : Word) (s : State) : Result :=
  s.withCore core (.statusWrite core value) fun c =>
    if validMode (modeOf value) then .next (s.statusWrite c value).respOpen
    else s.faulted .badMode (.statusWrite core value)

/-- `SAVED_STATUS_READ` (R177, R178).  In USR and SYS mode `resp` gets an unspecified value: a free value. -/
def execSavedStatusRead (core : BitVec 8) (s : State) : Result :=
  s.withCore core (.savedStatusRead core) fun c =>
    s.withBank (modeOf (s.core c).status) (.savedStatusRead core) fun b =>
      match b with
      | .priv p => .next (s.respond (0#32 ++ (s.core c).saved p))
      | .normal => .next (s.reject .badSpsr (opWord (.savedStatusRead core))).respOpen

/-- `SAVED_STATUS_WRITE value` (R179, R178). -/
def execSavedStatusWrite (core : BitVec 8) (value : Word) (s : State) : Result :=
  s.withCore core (.savedStatusWrite core value) fun c =>
    s.withBank (modeOf (s.core c).status) (.savedStatusWrite core value) fun b =>
      match b with
      | .priv p => .next (s.setCore c ((s.core c).withSaved p value)).respOpen
      | .normal => s.rejected .badSpsr (.savedStatusWrite core value)

/-- `BANK_REG_READ mode, index` (R180).  That the core is checked first is a DESIGN CHOICE (log entry 30). -/
def execBankRegRead (core : BitVec 8) (index : BitVec 4) (mode : BitVec 5) (s : State) : Result :=
  s.withCore core (.bankRegRead core index mode) fun c =>
    s.withBank mode (.bankRegRead core index mode) fun b => s.readBanked c b index

/-- `BANK_REG_WRITE mode, index, value` (R181).  That the core is checked first is a DESIGN CHOICE (log entry 30). -/
def execBankRegWrite (core : BitVec 8) (index : BitVec 4) (mode : BitVec 5) (value : Word) (s : State) : Result :=
  s.withCore core (.bankRegWrite core index mode value) fun c =>
    s.withBank mode (.bankRegWrite core index mode value) fun b => s.writeBanked c b index value

end Sys2Proof.Machine
end

