-- ==== Sys2Proof/Machine/Exceptions.lean ====
section
/-! DEFINITION. Exceptions and the interrupt wait: `TRAP`, `EXC_RETURN`, `WAIT_IRQ` (`42_registers_modes.md` R182 to
R184) and `EXC_BASE_WRITE` (`60_exceptions.md` R257).  Entry and return themselves are in `Ops.lean`. -/

namespace Sys2Proof.Machine

/-- `TRAP exc, back` (R182).  That the core is checked first is a DESIGN CHOICE (log entry 30). -/
def execTrap (core : BitVec 8) (exc : BitVec 3) (back : Word) (s : State) : Result :=
  s.withCore core (.trap core exc back) fun c =>
    match excOf exc with
    | none => s.rejected .badExc (.trap core exc back)
    | some x => .next ((s.setCore c { s.core c with pc := (s.core c).pc - back }).excEntry c x).respOpen

/-- `EXC_RETURN target` (R183, R258). -/
def execExcReturn (core : BitVec 8) (target : Word) (s : State) : Result :=
  s.withCore core (.excReturn core target) fun c =>
    s.withBank (modeOf (s.core c).status) (.excReturn core target) fun b =>
      match b with
      | .normal => s.faulted .badSpsr (.excReturn core target)
      | .priv p =>
        if validMode (modeOf ((s.core c).saved p)) then .next (s.excReturn c ((s.core c).saved p) target).respOpen
        else s.faulted .badMode (.excReturn core target)

/-- `WAIT_IRQ`: `Halt(c, 0)` (R184). -/
def execWaitIrq (core : BitVec 8) (s : State) : Result :=
  s.withCore core (.waitIrq core) fun c => .next (s.halt c 0).respOpen

/-- `EXC_BASE_WRITE core, value` (R257). -/
def execExcBaseWrite (core : BitVec 8) (value : Word) (s : State) : Result :=
  s.withCore core (.excBaseWrite core value) fun c =>
    .next (s.setCore c { s.core c with excBase := value }).respOpen

end Sys2Proof.Machine
end

