-- ==== Sys2Proof/Machine/Interrupts.lean ====
section
/-! DEFINITION. The interrupt controller (`43_interrupt_controller.md`): sending, software-generated interrupts, the
controller's registers, and the delivery tasks. -/

namespace Sys2Proof.Machine

/-- Runs `f` on a legal symmetric core; any other value is `reject(E_BAD_CORE)` (R96). -/
def State.withSym (s : State) (core : BitVec 8) (i : Instr) (f : SymId → Result) : Result :=
  match symOf core with
  | some c => f c
  | none => s.rejected .badCore i

/-- Runs `f` on a legal type of the symmetric-core domain; any other value is `reject(E_BAD_IRQ_TYPE)` (R97). -/
def State.withType (s : State) (type : BitVec 16) (i : Instr) (f : IrqType → Result) : Result :=
  match symTypeOf type with
  | some t => f t
  | none => s.rejected .badIrqType i

/-! ## Sending -/

/-- `SEND_IRQ target, type` (R201). -/
def execSendIrq (target : BitVec 8) (type : BitVec 16) (s : State) : Result :=
  if target = 4#8 then
    match mgmtTypeOf type with
    | some t => .next ({ s with mgmtPending := withBit s.mgmtPending t.val }.kick mgmtCore).respOpen
    | none => s.rejected .badIrqType (.sendIrq target type)
  else if target = 5#8 then
    s.withType type (.sendIrq target type) fun t => .next (s.broadcast t).respOpen
  else
    s.withSym target (.sendIrq target type) fun c =>
      s.withType type (.sendIrq target type) fun t => .next (s.sendSym c t).respOpen

/-- `SGI core, request` (R215, R216): the checks in the order core, type, mode. -/
def execSgi (core : BitVec 8) (type : BitVec 10) (mask : BitVec 4) (mode : BitVec 2) (s : State) : Result :=
  s.withSym core (.sgi core type mask mode) fun i =>
    match sgiTypeOf type with
    | none => s.rejected .badIrqType (.sgi core type mask mode)
    | some t =>
      match sgiTargets i mask mode with
      | none => s.rejected .badSgiMode (.sgi core type mask mode)
      | some targets => .next (s.sgiSend i t targets).respOpen

/-! ## The management core's registers -/

/-- `MGMT_ENABLE_WRITE value` (R217). -/
def execMgmtEnableWrite (value : Word) (s : State) : Result :=
  .next ({ s with mgmtEnable := value }.irqCheck mgmtCore).respOpen

/-- `MGMT_PEND_CLEAR mask` (R218). -/
def execMgmtPendClear (mask : Word) (s : State) : Result :=
  .next ({ s with mgmtPending := s.mgmtPending &&& ~~~mask }.respOpen)

/-- `MGMT_PEND_READ` (R219). -/
def execMgmtPendRead (s : State) : Result := .next (s.respond (0#32 ++ s.mgmtPending))

/-- `MGMT_ENABLE_READ` (R220). -/
def execMgmtEnableRead (s : State) : Result := .next (s.respond (0#32 ++ s.mgmtEnable))

/-! ## The distributor's registers -/

/-- `DIST_ENABLE_WRITE value` (R221). -/
def execDistEnableWrite (value : BitVec 1) (s : State) : Result :=
  .next ((((({ s with distEnable := value.getLsbD 0 }.irqCheck 0).irqCheck 1).irqCheck 2).irqCheck 3).respOpen)

/-- `LOCAL_ENABLE_WRITE core, value` (R222). -/
def execLocalEnableWrite (core : BitVec 8) (value : BitVec 1) (s : State) : Result :=
  s.withSym core (.localEnableWrite core value) fun c =>
    .next ((s.setSymIrq c { s.symIrq c with localEnable := value.getLsbD 0 }).irqCheck (symCore c)).respOpen

/-- `IRQ_ENABLE_SET core, type` (R223).  That the core is checked before the type is a DESIGN CHOICE
(log entry 30), unsafe for which error bit is set when both are illegal. -/
def execIrqEnableSet (core : BitVec 8) (type : BitVec 16) (s : State) : Result :=
  s.withSym core (.irqEnableSet core type) fun c =>
    s.withType type (.irqEnableSet core type) fun t =>
      .next ((s.setSymIrq c { s.symIrq c with enab := withBit (s.symIrq c).enab t.val }).irqCheck (symCore c)).respOpen

/-- `IRQ_ENABLE_CLEAR core, type` (R224).  That the core is checked before the type is a DESIGN CHOICE
(log entry 30), unsafe for which error bit is set when both are illegal. -/
def execIrqEnableClear (core : BitVec 8) (type : BitVec 16) (s : State) : Result :=
  s.withSym core (.irqEnableClear core type) fun c =>
    s.withType type (.irqEnableClear core type) fun t =>
      .next (s.setSymIrq c { s.symIrq c with enab := withoutBit (s.symIrq c).enab t.val }).respOpen

/-- `ROUTE_WRITE type, mask` (R225). -/
def execRouteWrite (type : BitVec 16) (mask : BitVec 4) (s : State) : Result :=
  s.withType type (.routeWrite type mask) fun t => .next ({ s with route := s.route.set t mask }.respOpen)

/-- What `IRQ_ACK` can claim: the lowest pending-and-enabled type, if the gates are open (R226). -/
def State.ackable (s : State) (c : SymId) : Option IrqType :=
  if s.distEnable && (s.symIrq c).localEnable then lowestBit ((s.symIrq c).pend &&& (s.symIrq c).enab) else none

/-- The source an acknowledge reports: the recorded sender for types 0..15 and 0 otherwise (R226, R100). -/
def SymIrq.source (k : SymIrq) (t : IrqType) : BitVec 2 := if h : t.val < 16 then k.src[t.val] else 0#2

/-- The response of `IRQ_ACK`: type in bits 9:0, source in bits 11:10 (R100, R226). -/
def ackResponse (src : BitVec 2) (t : IrqType) : BitVec 64 := 0#52 ++ src ++ BitVec.ofNat 10 t.val

/-- `IRQ_ACK core` (R226). -/
def execIrqAck (core : BitVec 8) (s : State) : Result :=
  s.withSym core (.irqAck core) fun c =>
    match s.ackable c with
    | none => .next (s.respond 1023#64)
    | some t =>
      .next ((s.setSymIrq c
        { s.symIrq c with
          pend := withoutBit (s.symIrq c).pend t.val
          active := withBit (s.symIrq c).active t.val }).respond (ackResponse ((s.symIrq c).source t) t))

/-- `IRQ_EOI core, type` (R227).  That the core is checked before the type is a DESIGN CHOICE
(log entry 30), unsafe for which error bit is set when both are illegal. -/
def execIrqEoi (core : BitVec 8) (type : BitVec 16) (s : State) : Result :=
  s.withSym core (.irqEoi core type) fun c =>
    s.withType type (.irqEoi core type) fun t =>
      .next ((s.setSymIrq c { s.symIrq c with active := withoutBit (s.symIrq c).active t.val }).irqCheck
        (symCore c)).respOpen

/-! ## Delivery (R205) -/

/-- `T_IRQ_DELIVER_0`. -/
def execTIrqDeliver0 (s : State) : Result := .next (s.deliver 0).respOpen

/-- `T_IRQ_DELIVER_1`. -/
def execTIrqDeliver1 (s : State) : Result := .next (s.deliver 1).respOpen

/-- `T_IRQ_DELIVER_2`: core 2 is an extra core. -/
def execTIrqDeliver2 (s : State) : Result := .next (s.deliverExtra 0 2).respOpen

/-- `T_IRQ_DELIVER_3`: core 3 is an extra core. -/
def execTIrqDeliver3 (s : State) : Result := .next (s.deliverExtra 1 3).respOpen

/-- `T_IRQ_DELIVER_4`: the management core. -/
def execTIrqDeliver4 (s : State) : Result := .next (s.deliver 4).respOpen

end Sys2Proof.Machine
end

