-- ==== Sys2Proof/Machine/Lifecycle.lean ====
section
/-! DEFINITION. Halt and wake, extra cores, performance mode (`43_interrupt_controller.md` R210, R214, R230 to R232)
and `RESET` (`70_reset_and_hazards.md` R290, R291). -/

namespace Sys2Proof.Machine

/-- Runs `f` on a legal halt reason; any other value is `reject(E_BAD_REASON)` (R97). -/
def State.withReason (s : State) (reason : BitVec 8) (i : Instr) (f : Fin 8 → Result) : Result :=
  match reasonOf reason with
  | some r => f r
  | none => s.rejected .badReason i

/-- Runs `f` on an extra core; any other value is `reject(E_BAD_CORE)` (R230, R231). -/
def State.withExtra (s : State) (core : BitVec 8) (i : Instr) (f : Fin 2 → Result) : Result :=
  match extraOf core with
  | some e => f e
  | none => s.rejected .badCore i

/-- `HALT core, reason` (R210). -/
def execHalt (core reason : BitVec 8) (s : State) : Result :=
  s.withCore core (.halt core reason) fun c =>
    s.withReason reason (.halt core reason) fun r => .next (s.halt c r).respOpen

/-- `UNHALT core, reason` (R214). -/
def execUnhalt (core reason : BitVec 8) (s : State) : Result :=
  s.withCore core (.unhalt core reason) fun c =>
    s.withReason reason (.unhalt core reason) fun r =>
      .next (s.setCore c { s.core c with halted := withoutBit (s.core c).halted r.val }).respOpen

/-- `XCORE_START core` (R230). -/
def execXcoreStart (core : BitVec 8) (s : State) : Result :=
  s.withExtra core (.xcoreStart core) fun e =>
    .next ((s.setExtra e { s.extra[e] with started := true, shutdownPending := false }).schedule 2#8 0#64).respOpen

/-- `XCORE_SHUTDOWN_REQ core` (R231). -/
def execXcoreShutdownReq (core : BitVec 8) (s : State) : Result :=
  s.withExtra core (.xcoreShutdownReq core) fun e =>
    if s.extra[e].started then .next (s.setExtra e { s.extra[e] with shutdownPending := true }).respOpen
    else .next s.respOpen

/-- `PERF_MODE_WRITE value` (R232). -/
def execPerfModeWrite (value : Word) (s : State) : Result := .next ({ s with perfCfg := value }.respOpen)

/-! ## Reset -/

/-- Step 2 of the reset sequence for one core (R291, R49): every item of the context but `pipe` and `exc_base`'s
parameter at its reset value, `pc` at `BOOT_PC[c]`, the unspecified items free values. -/
def CpuContext.coldStart (p : Params) (n : Nat) (c : CoreId) : CpuContext where
  readyAt := 0#64
  halted := if c = 2 ∨ c = 3 then 0x01#8 else 0x00#8
  normal := Vector.ofFn fun i : Fin 15 => Config.openReg (n + i.val)
  fiq := Vector.ofFn fun i : Fin 7 => Config.openReg (n + 15 + i.val)
  irq := Vector.ofFn fun i : Fin 2 => Config.openReg (n + 22 + i.val)
  svc := Vector.ofFn fun i : Fin 2 => Config.openReg (n + 24 + i.val)
  abt := Vector.ofFn fun i : Fin 2 => Config.openReg (n + 26 + i.val)
  und := Vector.ofFn fun i : Fin 2 => Config.openReg (n + 28 + i.val)
  pc := p.bootPc[c]
  status := 0x000000D3#32
  savedFiq := Config.openReg (n + 30)
  savedIrq := Config.openReg (n + 31)
  savedSvc := Config.openReg (n + 32)
  savedAbt := Config.openReg (n + 33)
  savedUnd := Config.openReg (n + 34)
  pipe0 := 0#32
  pipe1 := 0#32
  excBase := p.excBaseReset[c]

/-- Steps 2, 4 and 5 of the reset sequence (R291): every item of SEB's own state at its reset value (R49).  What
stands outside SEB (the parameters, the input pin, the external memory, the host's tape, the trace) is not reset
(R290). -/
def State.coldStart (s : State) : State :=
  { s with
    now := 0#64
    queue := [⟨0#8, s.params.rebaseHorizon⟩]
    running := false
    fourCore := false
    cores := Vector.ofFn fun c : Fin 5 => CpuContext.coldStart s.params (s.freeCount + 35 * c.val) c
    mgmtPending := 0#32
    mgmtEnable := 0#32
    distEnable := false
    sym := Vector.replicate 4 ⟨false, 0#128, 0#128, 0#128, Vector.replicate 16 0#2⟩
    route := Vector.replicate 128 0#4
    guard := Vector.replicate 5 false
    extra := Vector.replicate 2 ⟨false, false, false⟩
    perfCfg := 0#32
    perfEff := 0#32
    errFlags := 0#16
    errLast := 0#96
    phase := .idle
    faultMarks := 0#16
    answers := []
    stepChanged := false
    freeCount := s.freeCount + 175 }

/-- The reset sequence once `BOOT_IMAGE_OK` is 1 (R291): the cold start, then `Flush` of cores 0 to 4 in order. -/
def State.resetSequence (s : State) : State :=
  (((((s.coldStart.flush 0).flush 1).flush 2).flush 3).flush 4).respOpen

/-- The reset sequence from its step 1: SEB stays in reset until `BOOT_IMAGE_OK` is 1 (R291, R292). -/
def State.enterReset (s : State) : State :=
  if s.bootImageOk then s.resetSequence else { s with phase := .inReset }

/-- `RESET` (R290). -/
def execReset (s : State) : Result := .next s.enterReset

end Sys2Proof.Machine
end

