-- ==== Sys2Proof/Machine/Dispatch.lean ====
section
/-! DEFINITION. One arm per operation: each calls the operation's own meaning. -/

namespace Sys2Proof.Machine

/-- What an operation does (R2). -/
def exec (i : Instr) (s : State) : Host.Outcome State Fault Refusal :=
  match i with
  | .schedule task delay => Sys2Proof.Machine.execSchedule task delay s
  | .sendIrq target type => Sys2Proof.Machine.execSendIrq target type s
  | .halt core reason => Sys2Proof.Machine.execHalt core reason s
  | .unhalt core reason => Sys2Proof.Machine.execUnhalt core reason s
  | .sgi core type mask mode => Sys2Proof.Machine.execSgi core type mask mode s
  | .mgmtEnableWrite value => Sys2Proof.Machine.execMgmtEnableWrite value s
  | .mgmtPendClear mask => Sys2Proof.Machine.execMgmtPendClear mask s
  | .mgmtPendRead => Sys2Proof.Machine.execMgmtPendRead s
  | .mgmtEnableRead => Sys2Proof.Machine.execMgmtEnableRead s
  | .distEnableWrite value => Sys2Proof.Machine.execDistEnableWrite value s
  | .localEnableWrite core value => Sys2Proof.Machine.execLocalEnableWrite core value s
  | .irqEnableSet core type => Sys2Proof.Machine.execIrqEnableSet core type s
  | .irqEnableClear core type => Sys2Proof.Machine.execIrqEnableClear core type s
  | .routeWrite type mask => Sys2Proof.Machine.execRouteWrite type mask s
  | .irqAck core => Sys2Proof.Machine.execIrqAck core s
  | .irqEoi core type => Sys2Proof.Machine.execIrqEoi core type s
  | .xcoreStart core => Sys2Proof.Machine.execXcoreStart core s
  | .xcoreShutdownReq core => Sys2Proof.Machine.execXcoreShutdownReq core s
  | .excBaseWrite core value => Sys2Proof.Machine.execExcBaseWrite core value s
  | .perfModeWrite value => Sys2Proof.Machine.execPerfModeWrite value s
  | .readCycle => Sys2Proof.Machine.execReadCycle s
  | .run => Sys2Proof.Machine.execRun s
  | .reset => Sys2Proof.Machine.execReset s
  | .regRead core index => Sys2Proof.Machine.execRegRead core index s
  | .regWrite core index value => Sys2Proof.Machine.execRegWrite core index value s
  | .pcWrite core target => Sys2Proof.Machine.execPcWrite core target s
  | .statusRead core => Sys2Proof.Machine.execStatusRead core s
  | .statusWrite core value => Sys2Proof.Machine.execStatusWrite core value s
  | .savedStatusRead core => Sys2Proof.Machine.execSavedStatusRead core s
  | .savedStatusWrite core value => Sys2Proof.Machine.execSavedStatusWrite core value s
  | .bankRegRead core index mode => Sys2Proof.Machine.execBankRegRead core index mode s
  | .bankRegWrite core index mode value => Sys2Proof.Machine.execBankRegWrite core index mode value s
  | .trap core exc back => Sys2Proof.Machine.execTrap core exc back s
  | .excReturn core target => Sys2Proof.Machine.execExcReturn core target s
  | .waitIrq core => Sys2Proof.Machine.execWaitIrq core s
  | .tRebase => Sys2Proof.Machine.execTRebase s
  | .tEndFrame => Sys2Proof.Machine.execTEndFrame s
  | .tCoreConfig => Sys2Proof.Machine.execTCoreConfig s
  | .tIrqDeliver0 => Sys2Proof.Machine.execTIrqDeliver0 s
  | .tIrqDeliver1 => Sys2Proof.Machine.execTIrqDeliver1 s
  | .tIrqDeliver2 => Sys2Proof.Machine.execTIrqDeliver2 s
  | .tIrqDeliver3 => Sys2Proof.Machine.execTIrqDeliver3 s
  | .tIrqDeliver4 => Sys2Proof.Machine.execTIrqDeliver4 s
  | .tPeripheral task => Sys2Proof.Machine.execTPeripheral task s

end Sys2Proof.Machine
end

