-- ==== Sys2Proof/Machine/Sequencer.lean ====
section
/-! DEFINITION. The engine's loop as single transitions (`41_execution_engine.md`): one transition is one command of
the host, one pass of a test of the loop, one visit of a core, one action of an executor or a callback, or one
dispatch of an event.  Only the agent whose turn it is acts (R7). -/

namespace Sys2Proof.Machine

/-! ## Words on the ports -/

/-- The ports words are presented on (R91, R92). -/
inductive Port where
  /-- The command port. -/
  | command
  /-- The CPU port. -/
  | cpu
deriving DecidableEq, Repr

/-- A CPU word may be issued for the core whose step is in progress only (R92).  A core field above 4 is left to the
operation, which rejects it as `E_BAD_CORE` (R96); log entry 19. -/
def ownCore (c : CoreId) (core : BitVec 8) : Bool :=
  match coreOf core with
  | some d => decide (d = c)
  | none => true

/-- The core field of a CPU word. -/
def cpuCoreField (i : Instr) : BitVec 8 := fieldA (opWord i)

/-- Whether an operation may be issued on a port in a phase: `RUN` and `RESET` by the host only, other CMD words by
the host, an executor or a callback, CPU words by the executor of their own core (R91, R92, R102). -/
def portAccepts (p : Port) (ph : Phase) (i : Instr) : Bool :=
  match p, ph with
  | .command, .idle => decide (i.format = .cmd)
  | .command, .inStep _ _ _ => decide (i.format = .cmd) && !i.hostOnly
  | .command, .callback _ => decide (i.format = .cmd) && !i.hostOnly
  | .cpu, .inStep c _ _ => decide (i.format = .cpu) && ownCore c (cpuCoreField i)
  | _, _ => false

/-- A word presented on a port: it is executed completely, or `reject(E_BAD_OP)` (R91, R101, R102, R262). -/
def State.issue (s : State) (p : Port) (w : OpWord) : Result :=
  match decode (.op w) with
  | .ok i => if portAccepts p s.phase i then exec i s else .next (s.reject .badOp w)
  | .error _ => .next (s.reject .badOp w)

/-! ## The host -/

/-- The engine is idle: the host's next command, or nothing while it issues none (R91 (c), R9). -/
def State.hostStep (s : State) : Result :=
  match s.hostIn with
  | [] => .next s
  | w :: rest => { s with hostIn := rest }.issue .command w

/-- The reset sequence waits for its input (R291 step 1, R292). -/
def State.resetStep (s : State) : Result := .next s.enterReset

/-! ## The loop and the instruction phase -/

/-- `while running = 1`, else `yield` (R141).  The yield is where `RUN` returns, so `resp` is unspecified after it
(R100): a free value (log entry 9). -/
def State.loopStep (s : State) : Result :=
  if s.running then .next { s with phase := .passTop }
  else .next ({ s with phase := .idle }.emit .yield).respOpen

/-- `VisitOrder(four_core)` (R143). -/
def visitOrder (fourCore : Bool) : List CoreId := if fourCore then [0, 1, 2, 3, 4] else [0, 1, 4]

/-- The test between two passes: another pass, or the event phase, whose first action is the jump of `now` (R142,
R155). -/
def State.passStep (s : State) : Result :=
  match s.queue with
  | [] => .fault .emptyQueue
  | e :: _ =>
    if s.now < e.due then .next { s with phase := .visit (visitOrder s.fourCore) }
    else .next { s with now := e.due, phase := .eventPhase }

/-- `Eligible(c)` (R144). -/
def State.eligible (s : State) (c : CoreId) : Bool := !(s.core c).isHalted && decide ((s.core c).readyAt ≤ s.now)

/-- The start of `CpuStep(c)`: the pipeline advances and the executor is called with the opcode that stood in slot 0
(R145, R146, R147).  Nothing has been answered to it and it has changed nothing yet. -/
def State.beginStep (s : State) (c : CoreId) (rest : List CoreId) : State :=
  { (s.pipeAdvance c).emit (.execCall c (s.core c).pipe0) with
    phase := .inStep c (s.core c).pipe0 rest
    answers := []
    stepChanged := false }

/-- The smaller of two cycles. -/
def minCycle (a b : Cycle) : Cycle := if a ≤ b then a else b

/-- The larger of two cycles. -/
def maxCycle (a b : Cycle) : Cycle := if a ≤ b then b else a

/-- `min(m, bound)` with `m` the least `ready_at` of the non-halted cores of the list, +inf when there is none
(R153). -/
def State.leastReady (s : State) (bound : Cycle) : List CoreId → Cycle
  | [] => bound
  | c :: cs =>
    if (s.core c).isHalted then s.leastReady bound cs
    else minCycle (s.core c).readyAt (s.leastReady bound cs)

/-- `AdvanceClock()` (R153), after which the next test between passes follows. -/
def State.advanceClock (s : State) : Result :=
  match s.queue with
  | [] => .fault .emptyQueue
  | e :: _ =>
    .next { s with now := maxCycle s.now (s.leastReady e.due (visitOrder s.fourCore)), phase := .passTop }

/-- The next core of a pass: a step if it is eligible when its turn comes, else nothing; after the last core the
clock advances (R142, R144). -/
def State.visitStep (s : State) (rest : List CoreId) : Result :=
  match rest with
  | [] => s.advanceClock
  | c :: cs => if s.eligible c then .next (s.beginStep c cs) else .next { s with phase := .visit cs }

/-! ## The executor -/

/-- `Weight(c)` (R151). -/
def weight (c : CoreId) : Cycle := if c = mgmtCore then 2#64 else 1#64

/-- The cost charge: `ready_at[c] <- now + Weight(c) * cost` (R151). -/
def State.charge (s : State) (c : CoreId) (cost : BitVec 32) : State :=
  s.setCore c { s.core c with readyAt := s.now + weight c * cost.setWidth 64 }

/-- The log entry of an unrecognized opcode: `{ 0xEE, c, 0x0000, zext_64(opcode) }` (R152). -/
def undefWord (c : CoreId) (opcode : Word) : OpWord := mkWord 0xEE#8 (BitVec.ofNat 8 c.val) 0#16 (0#32 ++ opcode)

/-- The executor returns a cost; one outside its contract is a fault (R150 (c), U18). -/
def State.returnCost (s : State) (c : CoreId) (rest : List CoreId) (cost : BitVec 32) : Result :=
  if 1#32 ≤ cost ∧ cost ≤ 0x7FFFFFFF#32 then .next { s.charge c cost with phase := .visit rest }
  else .fault .executorCost

/-- The executor returns `Unrecognized`: logged, cost 1, no other effect (R152). -/
def State.returnUnrecognized (s : State) (c : CoreId) (opcode : Word) (rest : List CoreId) : State :=
  { (s.reject .undefInstr (undefWord c opcode)).charge c 1#32 with phase := .visit rest }

/-- The executor returns `Unrecognized`: allowed only if it "has issued nothing that changes state" (R150 (c)); else it
has broken its contract, a fault (U18; log entry 23). -/
def State.returnUnrecognizedIfClean (s : State) (c : CoreId) (opcode : Word) (rest : List CoreId) : Result :=
  if s.stepChanged then .fault .executorUnrecognized else .next (s.returnUnrecognized c opcode rest)

/-- `Exec(c, opcode)`: what the executor does next, a function of the core, the opcode and the values it has read
(R150 (d)). -/
def State.execAction (s : State) (c : CoreId) (opcode : Word) : ExecAction :=
  match s.params.executor.find? (fun r => r.core == c && r.opcode == opcode && r.answers == s.answers) with
  | some r => r.action
  | none => Config.openExec c opcode s.answers

/-- The state once the agent whose turn it is has taken note of what an operation answered. -/
def State.heard (s : State) (a : Option (BitVec 64)) : State := { s with answers := a :: s.answers }

/-- The state once the executor has taken note of what an operation answered, and of whether it changed state. -/
def State.noted (s : State) (a : Option (BitVec 64)) (changed : Bool) : State :=
  { s.heard a with stepChanged := s.stepChanged || changed }

/-- What the issuer of a word reads in the response register of `t`: nothing, unless the operation returns a value
(R46).  An operation that returns a value and was rejected left the register alone (R11), and that its issuer then reads
what an earlier operation left there is a DESIGN CHOICE (log entry 31), unsafe. -/
def wordAnswer (w : OpWord) (t : State) : Option (BitVec 64) :=
  match decode (.op w) with
  | .ok i => if i.returnsValue then some t.resp else none
  | .error _ => none

/-- A word that led from `s` to `t` changed state: it left something else than the response register otherwise than it
was (R150 (c)). -/
def changedBy (s t : State) : Bool := decide ({ t with resp := s.resp, freeCount := s.freeCount } ≠ s)

/-- A word issued by the executor: executed, and its answer noted (R150 (b)). -/
def State.issueInStep (s : State) (p : Port) (w : OpWord) : Result :=
  onNext (s.issue p w) fun t => t.noted (wordAnswer w t) (changedBy s t)

/-- One action of the executor of core `c` (R150).  A `MemRead` returns a value and a `MemWrite` changes state.  An
executor that never returns breaks its contract (U18): that the steps then go on, with no fault, is a DESIGN CHOICE (log
entry 32). -/
def State.executorStep (s : State) (c : CoreId) (opcode : Word) (rest : List CoreId) : Result :=
  match s.execAction c opcode with
  | .cpuWord w => s.issueInStep .cpu w
  | .cmdWord w => s.issueInStep .command w
  | .memRead addr n => .next ((s.afterRead c addr n).noted (some (0#32 ++ s.memAnswer c addr n)) false)
  | .memWrite addr n v => .next ((s.memWrite c addr n v).noted none true)
  | .done cost => s.returnCost c rest cost
  | .unrecognized => s.returnUnrecognizedIfClean c opcode rest

/-! ## The event phase -/

/-- `Dispatch(task)`: the callback bound to the task (R126). -/
def State.dispatch (s : State) (task : TaskId) : Result := exec (decodeTask task) s

/-- One iteration of `PopDue()`: the head is removed and dispatched if it is due; else the event phase ends (R125,
R141). -/
def State.eventStep (s : State) : Result :=
  match s.queue with
  | [] => .next { s with phase := .loopTop }
  | e :: q => if e.due ≤ s.now then { s with queue := q }.dispatch e.task else .next { s with phase := .loopTop }

/-! ## The external callbacks -/

/-- `registry(task)`: what the callback bound to the task does next, a function of the task and of the values it has read
(R23, R126).  Where the registry says nothing more it returns (log entry 6). -/
def State.callbackAction (s : State) (task : TaskId) : CallbackAction :=
  match s.params.registry.find? (fun r => r.task == task && r.answers == s.answers) with
  | some r => r.action
  | none => .ret

/-- One action of the external callback in progress (R23, R126). -/
def State.callbackStep (s : State) (task : TaskId) : Result :=
  match s.callbackAction task with
  | .cmdWord w => onNext (s.issue .command w) fun t => t.heard (wordAnswer w t)
  | .memRead addr n => .next ((s.externalRead addr n).heard (some (0#32 ++ s.externalAnswer addr n)))
  | .memWrite addr n v => .next ((s.externalWrite addr n v).heard none)
  | .ret => .next { s with phase := .eventPhase }

/-! ## One transition -/

/-- The transition of the agent whose turn it is. -/
def State.transition (s : State) : Result :=
  match s.phase with
  | .inReset => s.resetStep
  | .idle => s.hostStep
  | .loopTop => s.loopStep
  | .passTop => s.passStep
  | .visit rest => s.visitStep rest
  | .inStep c opcode rest => s.executorStep c opcode rest
  | .eventPhase => s.eventStep
  | .callback task => s.callbackStep task

/-! ## Where the next step fetches -/

/-- A CPU word as the executor's next action.  The step of another core than the one in progress, or no step, is made
the step of the core the word names (of core 0 if it names none), with the opcode in its slot 0: R92 lets no other core
issue it.  The executor's table says that it issues the word at this point of the step. -/
def State.withCpuWord (s : State) (w : OpWord) : State :=
  let c : CoreId := match coreOf (fieldA w) with
    | some d => d
    | none => 0
  let now : Word × List CoreId := match s.phase with
    | .inStep d opcode rest => if d = c then (opcode, rest) else ((s.core c).pipe0, [])
    | _ => ((s.core c).pipe0, [])
  { s with
    phase := .inStep c now.1 now.2
    params := { s.params with executor := ⟨c, now.1, s.answers, .cpuWord w⟩ :: s.params.executor } }

/-- A CMD word as the host's next command, the engine idle. -/
def State.withHostWord (s : State) (w : OpWord) : State := { s with phase := .idle, hostIn := w :: s.hostIn }

/-- A task as an event at the head of the queue, due now, the event phase in progress. -/
def State.withTask (s : State) (b : TaskId) : State := { s with phase := .eventPhase, queue := ⟨b, s.now⟩ :: s.queue }

/-- The op codes of the CPU port are 0x40 and above (R90). -/
def isCpuWord (w : OpWord) : Bool := decide (0x40#8 ≤ fieldOp w)

end Sys2Proof.Machine
end

