-- ==== Sys2Proof/Machine/Step.lean ====
section
/-! DEFINITION. One step of SEB, and where a step fetches its next instruction. -/

namespace Sys2Proof.Machine

/-- One step: the transition of the agent whose turn it is (R6, R7). -/
def step (s : State) : Host.Outcome State Fault Refusal := s.transition

/-- The state whose very next step runs the given instruction: a CMD word as the host's next command, a CPU word as the
next action of the executor of its core, a TaskId as the event at the head of the queue (log entries 7 and 27). -/
def State.withFetchWord (s : State) (nbits w : Nat) : State :=
  if nbits = 8 then s.withTask (BitVec.ofNat 8 w)
  else if isCpuWord (BitVec.ofNat 96 w) then s.withCpuWord (BitVec.ofNat 96 w)
  else s.withHostWord (BitVec.ofNat 96 w)

end Sys2Proof.Machine
end

