-- ==== Sys2Proof/Safety.lean ====
section
/-! DEFINITION. The terms in which statements about SEB are made: what it is for an operation to complete, the opcode
map as a table, which operand an operation rejects first, and the invariants of `10_state.md` R50 and of the rules
beside it. -/

namespace Sys2Proof.Machine

/-! ## Completing -/

/-- The operation `i`, issued at `s`, completes in `t`: it answers a next state that is `t` in every field but `resp`,
which R100 leaves unspecified after an operation that returns nothing, and the model's count of free values.  It
stores nothing: every byte of the memory reads as before. -/
def Completes (i : Instr) (s t : State) : Prop :=
  ∃ u, exec i s = .next u ∧ (∃ r n, u = { t with resp := r, freeCount := n }) ∧ ∀ a, u.byteAt a = s.byteAt a

/-- The operation `i`, issued at `s`, completes in `t` and returns `v` in `resp` (R46).  It stores nothing. -/
def Returns (i : Instr) (s t : State) (v : BitVec 64) : Prop :=
  ∃ u, exec i s = .next u ∧ u = { t with resp := v } ∧ ∀ a, u.byteAt a = s.byteAt a

/-- The operation `i`, issued at `s`, is `reject(e)`: the bit is set, the word kept, and nothing else changes (R11). -/
def Rejects (i : Instr) (s : State) (e : Err) : Prop :=
  exec i s = .next { s with errFlags := s.errFlags ||| (1#16 <<< e.bit), errLast := opWord i }

/-- The operation `i`, issued at `s`, is `fault(e)`: the same as `reject(e)`, and the behaviour is marked (R11). -/
def Faults (i : Instr) (s : State) (e : Err) : Prop :=
  exec i s = .next
    { s with
      errFlags := s.errFlags ||| (1#16 <<< e.bit)
      errLast := opWord i
      faultMarks := s.faultMarks ||| (1#16 <<< e.bit) }

/-- The state `t` once the issuer of an operation `i` that led to it has taken note of the response register, if the
operation is one that returns a value (R46). -/
def State.withAnswer (i : Instr) (t : State) : State :=
  { t with answers := (if i.returnsValue = true then some t.resp else none) :: t.answers }

/-- The state once the executor has taken note of an operation `i` that led from `s` to `t`: of the value it returned, if
it is one that returns a value (R46), and of whether it left anything but the response register otherwise than it was
(R150 (c), (d)). -/
def State.answered (s : State) (i : Instr) (t : State) : State :=
  { t.withAnswer i with
    stepChanged := t.stepChanged || decide ({ t with resp := s.resp, freeCount := s.freeCount } ≠ s) }

/-- `n` steps from `s` answer `t`. -/
def Reaches : Nat → State → State → Prop
  | 0, s, t => s = t
  | n + 1, s, t => ∃ u, step s = .next u ∧ Reaches n u t

/-- Nothing has happened that R262 asks a model to treat as a fault. -/
def State.Safe (s : State) : Prop := s.faultMarks = 0#16

/-! ## The opcode map as a table (R94) -/

/-- One row of the table of R94. -/
structure OpRow where
  /-- The mnemonic. -/
  mnemonic : String
  /-- The `match` column. -/
  pattern : OpWord
  /-- The `mask` column. -/
  mask : OpWord
deriving DecidableEq, Repr

/-- The CMD rows of R94. -/
def cmdRows : List OpRow :=
  [⟨"SCHEDULE", 0x010000000000000000000000#96, 0xFF00FFFF0000000000000000#96⟩,
   ⟨"SEND_IRQ", 0x020000000000000000000000#96, 0xFF000000FFFFFFFFFFFFFFFF#96⟩,
   ⟨"HALT", 0x030000000000000000000000#96, 0xFF00FF00FFFFFFFFFFFFFFFF#96⟩,
   ⟨"UNHALT", 0x040000000000000000000000#96, 0xFF00FF00FFFFFFFFFFFFFFFF#96⟩,
   ⟨"SGI", 0x050000000000000000000000#96, 0xFF00FFFFFFFFFFFFFCF0FC00#96⟩,
   ⟨"MGMT_ENABLE_WRITE", 0x060000000000000000000000#96, 0xFFFFFFFFFFFFFFFF00000000#96⟩,
   ⟨"MGMT_PEND_CLEAR", 0x070000000000000000000000#96, 0xFFFFFFFFFFFFFFFF00000000#96⟩,
   ⟨"MGMT_PEND_READ", 0x080000000000000000000000#96, 0xFFFFFFFFFFFFFFFFFFFFFFFF#96⟩,
   ⟨"MGMT_ENABLE_READ", 0x090000000000000000000000#96, 0xFFFFFFFFFFFFFFFFFFFFFFFF#96⟩,
   ⟨"DIST_ENABLE_WRITE", 0x0A0000000000000000000000#96, 0xFFFFFFFFFFFFFFFFFFFFFFFE#96⟩,
   ⟨"LOCAL_ENABLE_WRITE", 0x0B0000000000000000000000#96, 0xFF00FFFFFFFFFFFFFFFFFFFE#96⟩,
   ⟨"IRQ_ENABLE_SET", 0x0C0000000000000000000000#96, 0xFF000000FFFFFFFFFFFFFFFF#96⟩,
   ⟨"IRQ_ENABLE_CLEAR", 0x0D0000000000000000000000#96, 0xFF000000FFFFFFFFFFFFFFFF#96⟩,
   ⟨"ROUTE_WRITE", 0x0E0000000000000000000000#96, 0xFFFF0000FFFFFFFFFFFFFFF0#96⟩,
   ⟨"IRQ_ACK", 0x0F0000000000000000000000#96, 0xFF00FFFFFFFFFFFFFFFFFFFF#96⟩,
   ⟨"IRQ_EOI", 0x100000000000000000000000#96, 0xFF000000FFFFFFFFFFFFFFFF#96⟩,
   ⟨"XCORE_START", 0x110000000000000000000000#96, 0xFF00FFFFFFFFFFFFFFFFFFFF#96⟩,
   ⟨"XCORE_SHUTDOWN_REQ", 0x120000000000000000000000#96, 0xFF00FFFFFFFFFFFFFFFFFFFF#96⟩,
   ⟨"EXC_BASE_WRITE", 0x130000000000000000000000#96, 0xFF00FFFFFFFFFFFF00000000#96⟩,
   ⟨"PERF_MODE_WRITE", 0x140000000000000000000000#96, 0xFFFFFFFFFFFFFFFF00000000#96⟩,
   ⟨"READ_CYCLE", 0x150000000000000000000000#96, 0xFFFFFFFFFFFFFFFFFFFFFFFF#96⟩,
   ⟨"RUN", 0x160000000000000000000000#96, 0xFFFFFFFFFFFFFFFFFFFFFFFF#96⟩,
   ⟨"RESET", 0x170000000000000000000000#96, 0xFFFFFFFFFFFFFFFFFFFFFFFF#96⟩]

/-- The CPU rows of R94. -/
def cpuRows : List OpRow :=
  [⟨"REG_READ", 0x400000000000000000000000#96, 0xFF00FFF0FFFFFFFFFFFFFFFF#96⟩,
   ⟨"REG_WRITE", 0x410000000000000000000000#96, 0xFF00FFF0FFFFFFFF00000000#96⟩,
   ⟨"PC_WRITE", 0x420000000000000000000000#96, 0xFF00FFFFFFFFFFFF00000000#96⟩,
   ⟨"STATUS_READ", 0x430000000000000000000000#96, 0xFF00FFFFFFFFFFFFFFFFFFFF#96⟩,
   ⟨"STATUS_WRITE", 0x440000000000000000000000#96, 0xFF00FFFFFFFFFFFF00000000#96⟩,
   ⟨"SAVED_STATUS_READ", 0x450000000000000000000000#96, 0xFF00FFFFFFFFFFFFFFFFFFFF#96⟩,
   ⟨"SAVED_STATUS_WRITE", 0x460000000000000000000000#96, 0xFF00FFFFFFFFFFFF00000000#96⟩,
   ⟨"BANK_REG_READ", 0x470000000000000000000000#96, 0xFF00E0F0FFFFFFFFFFFFFFFF#96⟩,
   ⟨"BANK_REG_WRITE", 0x480000000000000000000000#96, 0xFF00E0F0FFFFFFFF00000000#96⟩,
   ⟨"TRAP", 0x490000000000000000000000#96, 0xFF00FFF8FFFFFFFF00000000#96⟩,
   ⟨"EXC_RETURN", 0x4A0000000000000000000000#96, 0xFF00FFFFFFFFFFFF00000000#96⟩,
   ⟨"WAIT_IRQ", 0x4B0000000000000000000000#96, 0xFF00FFFFFFFFFFFFFFFFFFFF#96⟩]

/-- The complete map of R94. -/
def opRows : List OpRow := cmdRows ++ cpuRows

/-! ## Which operand an operation rejects (R96, R97, R98, R123, R182, R215) -/

/-- The first failing check among those given, in the order of the operation's pseudocode. -/
def firstError : List (Bool × Err) → Option Err
  | [] => none
  | (bad, e) :: rest => if bad then some e else firstError rest

/-- The error an operation is rejected with for what its operand fields hold, or none if they are legal, with
`nTasks` the parameter `N_TASKS`.  The tables of R96 and R97, the mode of R98, the tasks of R123, the type of R182. -/
def operandError (nTasks : Nat) (i : Instr) : Option Err :=
  match i with
  | .schedule task _ =>
    firstError [(!(task.toNat = 1 || task.toNat = 2 || (8 ≤ task.toNat && task.toNat < nTasks)), .badTask)]
  | .sendIrq target type =>
    firstError [(5 < target.toNat, .badCore), (type.toNat ≥ (if target.toNat = 4 then 32 else 128), .badIrqType)]
  | .halt core reason => firstError [(4 < core.toNat, .badCore), (7 < reason.toNat, .badReason)]
  | .unhalt core reason => firstError [(4 < core.toNat, .badCore), (7 < reason.toNat, .badReason)]
  | .sgi core type _ mode =>
    firstError [(3 < core.toNat, .badCore), (15 < type.toNat, .badIrqType), (mode.toNat = 3, .badSgiMode)]
  | .localEnableWrite core _ => firstError [(3 < core.toNat, .badCore)]
  | .irqEnableSet core type => firstError [(3 < core.toNat, .badCore), (127 < type.toNat, .badIrqType)]
  | .irqEnableClear core type => firstError [(3 < core.toNat, .badCore), (127 < type.toNat, .badIrqType)]
  | .routeWrite type _ => firstError [(127 < type.toNat, .badIrqType)]
  | .irqAck core => firstError [(3 < core.toNat, .badCore)]
  | .irqEoi core type => firstError [(3 < core.toNat, .badCore), (127 < type.toNat, .badIrqType)]
  | .xcoreStart core => firstError [(!(core.toNat = 2 || core.toNat = 3), .badCore)]
  | .xcoreShutdownReq core => firstError [(!(core.toNat = 2 || core.toNat = 3), .badCore)]
  | .excBaseWrite core _ => firstError [(4 < core.toNat, .badCore)]
  | .regRead core _ => firstError [(4 < core.toNat, .badCore)]
  | .regWrite core _ _ => firstError [(4 < core.toNat, .badCore)]
  | .pcWrite core _ => firstError [(4 < core.toNat, .badCore)]
  | .statusRead core => firstError [(4 < core.toNat, .badCore)]
  | .statusWrite core _ => firstError [(4 < core.toNat, .badCore)]
  | .savedStatusRead core => firstError [(4 < core.toNat, .badCore)]
  | .savedStatusWrite core _ => firstError [(4 < core.toNat, .badCore)]
  | .bankRegRead core _ _ => firstError [(4 < core.toNat, .badCore)]
  | .bankRegWrite core _ _ _ => firstError [(4 < core.toNat, .badCore)]
  | .trap core exc _ => firstError [(4 < core.toNat, .badCore), (exc.toNat = 5, .badExc)]
  | .excReturn core _ => firstError [(4 < core.toNat, .badCore)]
  | .waitIrq core => firstError [(4 < core.toNat, .badCore)]
  | .mgmtEnableWrite _ | .mgmtPendClear _ | .mgmtPendRead | .mgmtEnableRead | .distEnableWrite _
  | .perfModeWrite _ | .readCycle | .run | .reset | .tRebase | .tEndFrame | .tCoreConfig | .tIrqDeliver0
  | .tIrqDeliver1 | .tIrqDeliver2 | .tIrqDeliver3 | .tIrqDeliver4 | .tPeripheral _ => none

/-! ## Logical registers (R31) -/

/-- The seven modes of the table of R31. -/
def modes : List (BitVec 5) := [0x10#5, 0x11#5, 0x12#5, 0x13#5, 0x17#5, 0x1B#5, 0x1F#5]

/-- The modes USR and SYS, whose bank is NORMAL (R31). -/
def normalMode (m : BitVec 5) : Prop := m = 0x10#5 ∨ m = 0x1F#5

/-- The logical register `i` of mode `m` and the logical register `j` of mode `n` are the same physical slot (R31):
indices 0..7 and 15 are shared by all modes, 8..12 by all modes but FIQ, 13 and 14 only inside a bank. -/
def sameRegister (m : BitVec 5) (i : BitVec 4) (n : BitVec 5) (j : BitVec 4) : Prop :=
  i = j ∧ (i.toNat < 8 ∨ i.toNat = 15 ∨ (i.toNat < 13 ∧ (m = 0x11#5 ↔ n = 0x11#5)) ∨ m = n
    ∨ (normalMode m ∧ normalMode n))

/-! ## The procedures of the spec, written from their own pseudocode

Each of these says what a procedure of the spec leaves, in other terms than the machine's own definition of it. -/

/-- The queue with an event inserted at "the smallest index with queue[p].due > due" (R121): behind every event that
is not due later. -/
def upperInsert (e : Event) (q : List Event) : List Event :=
  q.takeWhile (fun x => decide (x.due ≤ e.due)) ++ e :: q.dropWhile (fun x => decide (x.due ≤ e.due))

/-- What `Schedule(task, delay)` leaves (R121). -/
def State.withEvent (s : State) (task : TaskId) (delay : Cycle) : State :=
  { s with queue := upperInsert ⟨task, s.now + delay⟩ s.queue }

/-- What `Kick(t)` leaves (R202). -/
def State.kicked (s : State) (t : CoreId) : State :=
  if s.guard[t] = false then
    { s.withEvent (BitVec.ofNat 8 (3 + t.val)) s.params.irqLatency with guard := s.guard.set t true }
  else s

/-- What `IrqCheck(t)` leaves (R207). -/
def State.checked (s : State) (t : CoreId) : State := if s.line t = true then s.kicked t else s

/-- What a send of a type to one symmetric core leaves (R201): nothing unless the route lists the core. -/
def State.sentTo (s : State) (c : SymId) (type : IrqType) : State :=
  if s.route[type].getLsbD c.val = true then
    { s with sym := s.sym.set c { s.sym[c] with pend := s.sym[c].pend ||| (1#128 <<< type.val) } }.kicked c.castSucc
  else s

/-- What a broadcast leaves: the sends to the four cores in ascending order (R201). -/
def State.sentToAll (s : State) (type : IrqType) : State :=
  (((s.sentTo 0 type).sentTo 1 type).sentTo 2 type).sentTo 3 type

/-- What an `SGI` from core `i` leaves of one core of its target set (R215). -/
def State.sgiSentTo (s : State) (i : SymId) (type : Fin 16) (targets : BitVec 4) (c : SymId) : State :=
  if targets.getLsbD c.val = true then
    { s with
      sym := s.sym.set c
        { s.sym[c] with
          pend := s.sym[c].pend ||| (1#128 <<< type.val)
          src := s.sym[c].src.set type (BitVec.ofNat 2 i.val) } }.kicked c.castSucc
  else s

/-- `a & ~(W - 1)`: the greatest multiple of the width of `status` that is not above `a` (R149). -/
def alignDown (status a : Word) : Word :=
  if compact status = true then BitVec.ofNat 32 (a.toNat / 2 * 2) else BitVec.ofNat 32 (a.toNat / 4 * 4)

/-- The state in which core `c` has the context `k`, its pipeline refilled from `target` (R149): two fetches, the lower
address first, from the target aligned to the width of the status in `k`. -/
def State.redirected (s : State) (c : CoreId) (k : CpuContext) (target : Word) : State :=
  let w := fetchWidth k.status
  let a := alignDown k.status target
  let v0 := s.memAnswer c a w
  let v1 := (s.afterRead c a w).memAnswer c (a + w.bytes) w
  { s with
    cores := s.cores.set c { k with pipe0 := v0, pipe1 := v1, pc := a + w.bytes }
    out := .memRead c (a + w.bytes) w v1 :: .memRead c a w v0 :: s.out }

/-- Two states that agree but for the model's count of free values, which a fetch from a window advances. -/
def SameButCount (s t : State) : Prop := ∃ n, s = { t with freeCount := n }

/-! ## Invariants -/

/-- The number of pending events of a task. -/
def pending (task : TaskId) (q : List Event) : Nat := q.countP (fun e => e.task == task)

/-- The clock and the queue (R50 I-1 to I-3, R103, R132): the parameters are as R10 says, the queue is sorted, no event
is in the past, exactly one `T_REBASE` is pending and within the horizon, every event's task is bound, and no core's
ready-at cycle is further ahead than one instruction can put it. -/
structure TimeInv (s : State) : Prop where
  /-- The constraints of R10. -/
  params : s.params.wf = true
  /-- I-1. -/
  sorted : s.queue.Pairwise (fun a b => a.due ≤ b.due)
  /-- R132 (c), and I-3 with it. -/
  notPast : ∀ e ∈ s.queue, s.now ≤ e.due
  /-- I-2. -/
  oneRebase : pending 0#8 s.queue = 1
  /-- R132 (b). -/
  horizon : ∀ e ∈ s.queue, e.task = 0#8 → e.due ≤ s.params.rebaseHorizon
  /-- R103. -/
  bound : ∀ e ∈ s.queue, e.task.toNat < s.params.nTasks
  /-- R132 (d). -/
  ready : ∀ c, (s.core c).readyAt.toNat ≤ s.now.toNat + 4294967294

/-- The delivery guards (R50 I-4): a guard is set exactly when one delivery to its target is pending, and there is
never more than one. -/
def GuardInv (s : State) : Prop :=
  ∀ t : CoreId, pending (deliverTask t) s.queue = if s.guard[t] then 1 else 0

/-- One context (R31, R33, R75, R35): the mode has a bank, `pc` is aligned to the width of the current encoding, and
in the compact encoding both slots hold zero-extended 16-bit opcodes. -/
structure ContextOk (k : CpuContext) : Prop where
  /-- The mode is one of the table of R31. -/
  mode : modeOf k.status ∈ modes
  /-- R75. -/
  aligned : k.pc &&& ((fetchWidth k.status).bytes - 1#32) = 0#32
  /-- R35. -/
  narrow : compact k.status = true → k.pipe0.toNat < 65536 ∧ k.pipe1.toNat < 65536

/-- Every context is as `ContextOk` says. -/
def ContextsOk (s : State) : Prop := ∀ c, ContextOk (s.core c)

/-- The external memory is in canonical form. -/
def MemoryOk (s : State) : Prop := Memory.wf s.mem = true

/-- Bits 15:11 of `err_flags` read as zero (R45). -/
def LogOk (s : State) : Prop := s.errFlags.extractLsb' 11 5 = 0#5

/-- The engine is idle only when `running` is 0 (R91 (c)). -/
def IdleStopped (s : State) : Prop := s.phase = .idle → s.running = false

end Sys2Proof.Machine
end

