-- ==== Sys2Proof/Certificates/Slice0/Obligations.lean ====
section
/-! DEFINITION. The statements about SEB that are to be proved, family by family. -/

open Sys2Proof Sys2Proof.Machine

/-! ## Encoding (`30_encoding.md`) -/

/-- Decoding the encoding of a well-formed operation gives it back, whatever its operands (R90, R94, R95). -/
def Obligations.DecodeOfEncode : Prop := ∀ i : Instr, i.wf = true → decode (encode i) = .ok i

/-- What the decoder accepts is the encoding of the well-formed operation it reads: no two words and no two TaskIds
stand for the same operation, and no reserved bit is ignored (R94, R101). -/
def Obligations.EncodeOfDecode : Prop :=
  ∀ (e : Encoded) (i : Instr), decode e = .ok i → i.wf = true ∧ encode i = e

/-- The decoder is the table of R94: a word is read as an operation exactly when it matches that operation's row, and
a word that matches no row is refused. -/
def Obligations.DecoderFollowsOpcodeMap : Prop :=
  ∀ w : OpWord,
    (∀ i, decode (.op w) = .ok i → ∃ r ∈ opRows, w &&& r.mask = r.pattern ∧ r.mnemonic = i.mnemonic)
      ∧ (∀ r ∈ opRows, w &&& r.mask = r.pattern → ∃ i, decode (.op w) = .ok i ∧ i.mnemonic = r.mnemonic)
      ∧ ((∀ r ∈ opRows, w &&& r.mask ≠ r.pattern) → ∃ e, decode (.op w) = .error e)

/-- The worked encodings of R108 decode to the operations they stand for, and its illegal word does not. -/
def Obligations.WorkedEncodingsDecode : Prop :=
  decode (.op 0x01080000000000000000000A#96) = .ok (.schedule 8#8 10#64)
    ∧ decode (.op 0x020400030000000000000000#96) = .ok (.sendIrq 4#8 3#16)
    ∧ decode (.op 0x030200000000000000000000#96) = .ok (.halt 2#8 0#8)
    ∧ decode (.op 0x050100000000000000050002#96) = .ok (.sgi 1#8 2#10 5#4 0#2)
    ∧ decode (.op 0x050000000000000001000001#96) = .ok (.sgiOthers 0#8 1#10)
    ∧ decode (.op 0x420000000000000000000100#96) = .ok (.pcWrite 0#8 0x100#32)
    ∧ decode (.op 0x490400020000000000000004#96) = .ok (.trap 4#8 2#3 4#32)
    ∧ decode (.op 0x4700120D0000000000000000#96) = .ok (.bankRegRead 0#8 13#4 0x12#5)
    ∧ decode (.op 0x020400030000000000000001#96) = .error .reservedBit

/-- The TaskIds 0 to 7 are SEB's own tasks (R93).  That every TaskId from 8 to 255 is read as a peripheral task, and its
being bound tested only where it is scheduled and dispatched, is the model's choice (log entry 26): R93 says that
`N_TASKS` to 0xFF are unused. -/
def Obligations.TaskIdsDecode : Prop :=
  decode (.task 0x00#8) = .ok .tRebase ∧ decode (.task 0x01#8) = .ok .tEndFrame
    ∧ decode (.task 0x02#8) = .ok .tCoreConfig ∧ decode (.task 0x03#8) = .ok .tIrqDeliver0
    ∧ decode (.task 0x04#8) = .ok .tIrqDeliver1 ∧ decode (.task 0x05#8) = .ok .tIrqDeliver2
    ∧ decode (.task 0x06#8) = .ok .tIrqDeliver3 ∧ decode (.task 0x07#8) = .ok .tIrqDeliver4
    ∧ ∀ b : TaskId, 8 ≤ b.toNat → decode (.task b) = .ok (.tPeripheral b)

/-! ## Words on the ports -/

/-- A step runs the decoded operation: the host's next word when the engine is idle, an executor's next CMD word or CPU
word for its own core, a callback's next CMD word (R91, R92).  The step is `exec`: the word of the host is used up, and the
executor or the callback takes note of the answer, the executor also of whether the operation changed state (R150 (c),
(d), R126); the form of that note is the model's choice (log entries 5, 6, 23 and 31). -/
def Obligations.StepRunsDecodedWord : Prop :=
  ∀ (s : State) (w : OpWord) (i : Instr), decode (.op w) = .ok i →
    (∀ rest, s.phase = .idle → s.hostIn = w :: rest → i.format = .cmd → step s = exec i { s with hostIn := rest })
      ∧ (∀ c opcode cs, s.phase = .inStep c opcode cs → s.execAction c opcode = .cmdWord w → i.format = .cmd →
          i.hostOnly = false → step s = onNext (exec i s) (s.answered i))
      ∧ (∀ c opcode cs, s.phase = .inStep c opcode cs → s.execAction c opcode = .cpuWord w → i.format = .cpu →
          (fieldA w).toNat = c.val → step s = onNext (exec i s) (s.answered i))
      ∧ (∀ task, s.phase = .callback task → s.callbackAction task = .cmdWord w → i.format = .cmd →
          i.hostOnly = false → step s = onNext (exec i s) (State.withAnswer i))

/-- One iteration of `PopDue` (R125): a head that is due is removed first and its task then run; with no event due
the event phase ends. -/
def Obligations.StepRunsDueTask : Prop :=
  ∀ s : State, s.phase = .eventPhase →
    (∀ e q i, s.queue = e :: q → e.due ≤ s.now → decode (.task e.task) = .ok i → step s = exec i { s with queue := q })
      ∧ (∀ e q, s.queue = e :: q → s.now < e.due → step s = .next { s with phase := .loopTop })
      ∧ (s.queue = [] → step s = .next { s with phase := .loopTop })

/-- A word that is in no row of the map, a CPU word on the command port and a CMD word on the CPU port do nothing but
set bit 0 of `err_flags` and leave the word in `err_last`, whoever presents them (R101, R102). -/
def Obligations.IllegalWordIsOnlyLogged : Prop :=
  ∀ (s : State) (p : Port) (w : OpWord),
    ((∀ r ∈ opRows, w &&& r.mask ≠ r.pattern)
        ∨ (p = .command ∧ ∃ r ∈ cpuRows, w &&& r.mask = r.pattern)
        ∨ (p = .cpu ∧ ∃ r ∈ cmdRows, w &&& r.mask = r.pattern)) →
      s.issue p w = .next { s with errFlags := s.errFlags ||| 1#16, errLast := w }

/-- `RUN` and `RESET` from an executor or a callback are rejected as `E_BAD_OP` (R91, R262); so is a CPU word that
names another core than the one whose step is in progress, which R92 says cannot occur, and one whose core field is no
core at all is `E_BAD_CORE` (R96): these two clauses are the model's choice (log entry 19), as is what the issuer reads
in the response register after a rejected word (log entry 31). -/
def Obligations.MisplacedWordIsOnlyLogged : Prop :=
  ∀ (s : State) (w : OpWord) (i : Instr), decode (.op w) = .ok i →
    (∀ c opcode cs, s.phase = .inStep c opcode cs → s.execAction c opcode = .cmdWord w → i.hostOnly = true →
        step s = .next (s.answered i { s with errFlags := s.errFlags ||| 1#16, errLast := w }))
      ∧ (∀ task, s.phase = .callback task → s.callbackAction task = .cmdWord w → i.hostOnly = true →
        step s = .next { s with answers := none :: s.answers, errFlags := s.errFlags ||| 1#16, errLast := w })
      ∧ (∀ c opcode cs, s.phase = .inStep c opcode cs → s.execAction c opcode = .cpuWord w →
        (fieldA w).toNat < 5 → (fieldA w).toNat ≠ c.val →
        step s = .next (s.answered i { s with errFlags := s.errFlags ||| 1#16, errLast := w }))
      ∧ (∀ c opcode cs, s.phase = .inStep c opcode cs → s.execAction c opcode = .cpuWord w → i.format = .cpu →
        5 ≤ (fieldA w).toNat →
        step s = .next (s.answered i { s with errFlags := s.errFlags ||| 4#16, errLast := w }))

/-- An operation whose operands are not legal does nothing but log the first check that fails, in the order of its
pseudocode (R96, R97, R98, R123, R182, R215, R216, R262).  Of `IRQ_ENABLE_SET`, `IRQ_ENABLE_CLEAR`,
`IRQ_EOI` and the CPU words no pseudocode gives the order: that the core comes first is the model's choice (log
entry 30). -/
def Obligations.IllegalOperandIsOnlyLogged : Prop :=
  ∀ (i : Instr) (s : State) (e : Err), operandError s.params.nTasks i = some e → Rejects i s e

/-- The errors that depend on more than the operands: the sum of `SCHEDULE` that does not fit, a mode without a bank,
and the saved status of a mode that has none (R124, R176, R178, R183).  That a `fault(E)` goes on, with a mark, is the
model's choice (log entry 13). -/
def Obligations.ErrorsOfTheStateAreOnlyLogged : Prop :=
  ∀ s : State,
    (∀ task delay, operandError s.params.nTasks (.schedule task delay) = none →
        18446744073709551616 ≤ s.now.toNat + delay.toNat → Faults (.schedule task delay) s .schedOverflow)
      ∧ ∀ (core : BitVec 8) (c : CoreId), coreOf core = some c →
        (∀ value, modeOf value ∉ modes → Faults (.statusWrite core value) s .badMode)
          ∧ (∀ index mode, mode ∉ modes → Faults (.bankRegRead core index mode) s .badMode)
          ∧ (∀ index mode value, mode ∉ modes → Faults (.bankRegWrite core index mode value) s .badMode)
          ∧ (∀ target, normalMode (modeOf (s.core c).status) → Faults (.excReturn core target) s .badSpsr)
          ∧ (∀ target b, bankOf (modeOf (s.core c).status) = some (.priv b) →
              modeOf ((s.core c).saved b) ∉ modes → Faults (.excReturn core target) s .badMode)
          ∧ (∀ value, normalMode (modeOf (s.core c).status) → Rejects (.savedStatusWrite core value) s .badSpsr)

/-- A bit of `err_flags`, once set, stays set: no operation but `RESET` clears one, and none sets a reserved bit
(R45). -/
def Obligations.ErrorFlagsAreSticky : Prop :=
  ∀ (i : Instr) (s t : State), i ≠ .reset → exec i s = .next t →
    s.errFlags &&& t.errFlags = s.errFlags ∧ (LogOk s → LogOk t)

/-! ## Clock and Event Queue (`40_clock_event_queue.md`) -/

/-- `SCHEDULE` of a legal task, without overflow, inserts one event due `delay` from now behind every event that is not
due later, and changes nothing else (R120, R121). -/
def Obligations.ScheduleInsertsUpperBound : Prop :=
  ∀ (s : State) (task : BitVec 8) (delay : BitVec 64),
    (task.toNat = 1 ∨ task.toNat = 2 ∨ (8 ≤ task.toNat ∧ task.toNat < s.params.nTasks)) →
    s.now.toNat + delay.toNat < 18446744073709551616 →
      Completes (.schedule task delay) s
        { s with queue := upperInsert ⟨task, BitVec.ofNat 64 (s.now.toNat + delay.toNat)⟩ s.queue }

/-- `READ_CYCLE` returns `now` (R130). -/
def Obligations.ReadCycleReturnsNow : Prop := ∀ s : State, Returns .readCycle s s s.now

/-- `T_REBASE` takes `now` off every due cycle and, saturating, off every ready-at cycle, sets `now` to 0, strobes, and
arms itself at the horizon (R128, R129). -/
def Obligations.RebaseShiftsTheAxis : Prop :=
  ∀ s : State, (∀ e ∈ s.queue, s.now ≤ e.due) →
    Completes .tRebase s
      { s with
        now := 0#64
        queue := upperInsert ⟨0#8, s.params.rebaseHorizon⟩
          (s.queue.map fun e => ⟨e.task, BitVec.ofNat 64 (e.due.toNat - s.now.toNat)⟩)
        cores := s.cores.map fun k => { k with readyAt := BitVec.ofNat 64 (k.readyAt.toNat - s.now.toNat) }
        out := .rebaseStrobe s.now :: s.out }

/-! ## Execution Engine (`41_execution_engine.md`) -/

/-- `RUN` sets `running` and enters the loop (R140); `T_END_FRAME` clears it (R157); `T_CORE_CONFIG` makes `four_core`
the disjunction of the started flags (R158). -/
def Obligations.EngineOperations : Prop :=
  ∀ s : State,
    Completes .run s { s with running := true, phase := .loopTop }
      ∧ Completes .tEndFrame s { s with running := false }
      ∧ Completes .tCoreConfig s { s with fourCore := s.extra[0].started || s.extra[1].started }

/-- A peripheral task calls the one callback bound to it, with no argument and nothing answered to it yet (R23, R126); it
runs to completion, in at most one step for each line of the registry and one for its return (R9, R23: "it returns"),
and when it returns the event phase goes on.  A TaskId that is bound to no callback, which R103 says cannot be
dispatched, is refused: that clause is the model's choice (log entry 18), and so is the form of the registry (log
entry 6). -/
def Obligations.PeripheralTaskCallsItsCallback : Prop :=
  ∀ (s : State) (task : BitVec 8),
    (8 ≤ task.toNat → task.toNat < s.params.nTasks →
        Completes (.tPeripheral task) s
          { s with phase := .callback task, answers := [], out := .callback task :: s.out })
      ∧ (s.phase = .callback task → s.callbackAction task = .ret → step s = .next { s with phase := .eventPhase })
      ∧ (s.phase = .callback task → ∃ n t, n ≤ s.params.registry.length + 1 ∧ Reaches n s t ∧ t.phase = .eventPhase)
      ∧ (s.params.nTasks ≤ task.toNat → exec (.tPeripheral task) s = .refused (.unboundTask task))

/-- The loop (R141, R142, R143, R155): `running` is tested between a pair of phases and not inside one; a pass is begun
over the visit order while the head of the queue is due later than `now`, and else the event phase, with `now` at the
head's due cycle.  At the yield `RUN` has returned, with an unspecified response (R100). -/
def Obligations.EngineLoopTests : Prop :=
  ∀ s : State,
    (s.phase = .loopTop → s.running = true → step s = .next { s with phase := .passTop })
      ∧ (s.phase = .loopTop → s.running = false →
        ∃ v n, step s = .next { s with phase := .idle, out := .yield :: s.out, resp := v, freeCount := n })
      ∧ (∀ e q, s.phase = .passTop → s.queue = e :: q → s.now < e.due →
        step s = .next { s with phase := .visit (if s.fourCore = true then [0, 1, 2, 3, 4] else [0, 1, 4]) })
      ∧ (∀ e q, s.phase = .passTop → s.queue = e :: q → e.due ≤ s.now →
        step s = .next { s with now := e.due, phase := .eventPhase })

/-- A core's turn in a pass (R144, R145, R146, R147): if it is not halted and its ready-at cycle is reached, the executor
is called with the opcode that stood in slot 0, slot 1 moves up, `pc` steps by W and slot 1 is fetched from it; else
nothing happens.  That the notes on the answers and on changed state are cleared is the model's own bookkeeping (log
entries 5 and 23). -/
def Obligations.TurnOfACore : Prop :=
  ∀ (s : State) (c : CoreId) (cs : List CoreId), s.phase = .visit (c :: cs) →
    let k := s.core c
    let w := fetchWidth k.status
    let v := s.memAnswer c (k.pc + w.bytes) w
    (k.halted = 0#8 → k.readyAt ≤ s.now →
        ∃ t, step s = .next t ∧ SameButCount t
          { s with
            cores := s.cores.set c { k with pipe0 := k.pipe1, pc := k.pc + w.bytes, pipe1 := v }
            phase := .inStep c k.pipe0 cs
            answers := []
            stepChanged := false
            out := .execCall c k.pipe0 :: .memRead c (k.pc + w.bytes) w v :: s.out })
      ∧ (k.halted ≠ 0#8 ∨ s.now < k.readyAt → step s = .next { s with phase := .visit cs })

/-- "No halted CpuContext executes an instruction during the instruction phase" (R144): the executor of a core is
entered only in that core's turn, when it is not halted and its ready-at cycle is reached, and with the opcode that
was prefetched into slot 0 (R146). -/
def Obligations.OnlyEligibleCoresExecute : Prop :=
  ∀ (s t : State) (c : CoreId) (opcode : Word) (cs : List CoreId),
    step s = .next t → t.phase = .inStep c opcode cs → (∀ d op ds, s.phase ≠ .inStep d op ds) →
      s.phase = .visit (c :: cs) ∧ (s.core c).halted = 0#8 ∧ (s.core c).readyAt ≤ s.now ∧ opcode = (s.core c).pipe0

/-- The end of a step: the cost is charged from `now`, doubled for the management core (R151); an unrecognized opcode is
logged with its core, costs 1 and does nothing else (R152).  That a cost outside the contract of R150, and an
`Unrecognized` after the step has changed state, are faults is the model's choice (log entries 17 and 23). -/
def Obligations.StepIsCharged : Prop :=
  ∀ (s : State) (c : CoreId) (opcode : Word) (cs : List CoreId), s.phase = .inStep c opcode cs →
    (∀ cost : BitVec 32, s.execAction c opcode = .done cost → 1 ≤ cost.toNat → cost.toNat < 2147483648 →
        step s = .next
          { s with
            phase := .visit cs
            cores := s.cores.set c
              { s.core c with readyAt := s.now + BitVec.ofNat 64 ((if c.val = 4 then 2 else 1) * cost.toNat) } })
      ∧ (s.execAction c opcode = .unrecognized → s.stepChanged = false →
        step s = .next
          { s with
            phase := .visit cs
            errFlags := s.errFlags ||| 0x40#16
            errLast := 0xEE#8 ++ BitVec.ofNat 8 c.val ++ 0#16 ++ (0#32 ++ opcode)
            cores := s.cores.set c { s.core c with readyAt := s.now + (if c.val = 4 then 2#64 else 1#64) } })
      ∧ (∀ cost : BitVec 32, s.execAction c opcode = .done cost → cost.toNat = 0 ∨ 2147483648 ≤ cost.toNat →
        step s = .fault .executorCost)
      ∧ (s.execAction c opcode = .unrecognized → s.stepChanged = true → step s = .fault .executorUnrecognized)

/-- The executor's memory port (R70, R72, R76): a read answers the value of the memory at the address, and changes
nothing but the trace and the executor's note; a store makes the memory hold the value there and leaves every byte beyond
its width as it was.  It is the model's choice that the memory is little-endian (log entry 2), that an access at any
address, misaligned or wrapping, acts on the bytes that follow it (log entry 4), and that the first address decides
whether an access falls into a window, where a read answers a free value and a store leaves the memory alone (log
entry 3). -/
def Obligations.ExecutorMemoryAccess : Prop :=
  ∀ (s : State) (c : CoreId) (opcode : Word) (cs : List CoreId) (a : Word) (n : Width), s.phase = .inStep c opcode cs →
    (s.execAction c opcode = .memRead a n → s.inWindow c a = false →
        step s = .next
          { s with
            out := .memRead c a n (Memory.load s.mem a n) :: s.out
            answers := some ((Memory.load s.mem a n).setWidth 64) :: s.answers })
      ∧ (s.execAction c opcode = .memRead a n → s.inWindow c a = true →
        ∃ v, step s = .next
          { s with
            out := .memRead c a n v :: s.out
            answers := some (v.setWidth 64) :: s.answers
            freeCount := s.freeCount + 1 })
      ∧ (∀ v, s.execAction c opcode = .memWrite a n v → MemoryOk s → s.inWindow c a = false → ∃ t, step s = .next t
        ∧ Memory.load t.mem a n = n.trim v
        ∧ (∀ b : Word, n.bytes.toNat ≤ (b - a).toNat → t.byteAt b = s.byteAt b)
        ∧ t = { s with
                mem := t.mem, out := .memWrite c a n (n.trim v) :: s.out, answers := none :: s.answers,
                stepChanged := true })
      ∧ (∀ v, s.execAction c opcode = .memWrite a n v → s.inWindow c a = true →
        step s = .next
          { s with
            out := .memWrite c a n (n.trim v) :: s.out, answers := none :: s.answers, stepChanged := true })

/-- The memory accesses of an external callback (R23, R76): a read answers the value of the memory at the address, or a
free value where some window stands, and changes nothing but the trace and the callback's note; a store makes the memory hold the value there and
leaves every byte beyond its width as it was.  That a callback reaches the plain memory without a core identifier, also
under a window, is the model's choice (log entry 6), as are the byte order and the misaligned address (log entries 2
and 4). -/
def Obligations.CallbackMemoryAccess : Prop :=
  ∀ (s : State) (task : TaskId) (a : Word) (n : Width), s.phase = .callback task →
    (s.callbackAction task = .memRead a n → s.inSomeWindow a = false →
        step s = .next
          { s with
            out := .externalRead a n (Memory.load s.mem a n) :: s.out
            answers := some ((Memory.load s.mem a n).setWidth 64) :: s.answers })
      ∧ (s.callbackAction task = .memRead a n → s.inSomeWindow a = true →
        ∃ v, step s = .next
          { s with
            out := .externalRead a n v :: s.out
            answers := some (v.setWidth 64) :: s.answers
            freeCount := s.freeCount + 1 })
      ∧ (∀ v, s.callbackAction task = .memWrite a n v → MemoryOk s → ∃ t, step s = .next t
        ∧ Memory.load t.mem a n = n.trim v
        ∧ (∀ b : Word, n.bytes.toNat ≤ (b - a).toNat → t.byteAt b = s.byteAt b)
        ∧ t = { s with mem := t.mem, out := .externalWrite a n (n.trim v) :: s.out, answers := none :: s.answers })

/-- `AdvanceClock` (R153): `now` becomes the greater of `now` and the least of the head's due cycle and the ready-at
cycles of the cores of the visit order that are not halted. -/
def Obligations.AdvanceClock : Prop :=
  ∀ (s : State) (e : Event) (q : List Event), s.phase = .visit [] → s.queue = e :: q →
    ∃ n : Cycle, step s = .next { s with now := n, phase := .passTop }
      ∧ n.toNat = max s.now.toNat
        ((((if s.fourCore = true then [0, 1, 2, 3, 4] else [0, 1, 4]).filter
            (fun c : CoreId => (s.core c).halted == 0#8)).map (fun c => (s.core c).readyAt.toNat)).foldr min e.due.toNat)

/-! ## Registers, modes and the CPU port (`42_registers_modes.md`, `10_state.md`) -/

/-- The bank table (R31): two logical registers are the same storage exactly when the rule says so, and a mode outside
the table has no bank. -/
def Obligations.BankTable : Prop :=
  (∀ m n : BitVec 5, ∀ b d : Bank, bankOf m = some b → bankOf n = some d → ∀ i j : BitVec 4,
      phys b i = phys d j ↔ sameRegister m i n j)
    ∧ ∀ m : BitVec 5, m ∈ modes ↔ ∃ b, bankOf m = some b

/-- `REG_READ` and `BANK_REG_READ` return the slot that the current mode, or the given one, gives the index,
zero-extended, with index 15 `pc`; `STATUS_READ` returns the status register (R170, R173, R180). -/
def Obligations.RegisterReads : Prop :=
  ∀ (s : State) (core : BitVec 8) (c : CoreId), coreOf core = some c →
    (∀ index b, bankOf (modeOf (s.core c).status) = some b →
        Returns (.regRead core index) s s (((s.core c).readSlot (phys b index)).setWidth 64))
      ∧ (∀ index mode b, bankOf mode = some b →
        Returns (.bankRegRead core index mode) s s (((s.core c).readSlot (phys b index)).setWidth 64))
      ∧ (∀ b, (s.core c).readSlot (phys b 15#4) = (s.core c).pc)
      ∧ Returns (.statusRead core) s s ((s.core c).status.setWidth 64)

/-- `REG_WRITE` and `BANK_REG_WRITE` of an index below 15 write the one slot that the current mode, or the given one,
gives the index: every logical register of every mode that is not that slot, `pc` included, keeps its value, and
nothing else changes (R171, R181, R30). -/
def Obligations.RegisterWriteTouchesOneSlot : Prop :=
  ∀ (s : State) (core : BitVec 8) (c : CoreId) (index : BitVec 4) (value : Word) (m : BitVec 5) (i : Instr),
    coreOf core = some c → index ≠ 15#4 → m ∈ modes →
    (i = .regWrite core index value ∧ m = modeOf (s.core c).status ∨ i = .bankRegWrite core index m value) →
      ∃ k : CpuContext,
        Completes i s { s with cores := s.cores.set c k }
          ∧ (∀ n d j, bankOf n = some d → sameRegister m index n j → k.readSlot (phys d j) = value)
          ∧ (∀ n d j, bankOf n = some d → ¬ sameRegister m index n j →
              k.readSlot (phys d j) = (s.core c).readSlot (phys d j))
          ∧ k = { s.core c with
                  normal := k.normal, fiq := k.fiq, irq := k.irq, svc := k.svc, abt := k.abt, und := k.und }

/-- `PC_WRITE`, and `REG_WRITE` and `BANK_REG_WRITE` of index 15, refill the pipeline of their core from the target
aligned to the current width: `pc` is W above it, and both slots hold what was fetched there (R149, R171, R172,
R181). -/
def Obligations.BranchRefillsThePipeline : Prop :=
  ∀ (s : State) (core : BitVec 8) (c : CoreId) (target : Word), coreOf core = some c →
    Completes (.pcWrite core target) s (s.redirected c (s.core c) target)
      ∧ (modeOf (s.core c).status ∈ modes →
        Completes (.regWrite core 15#4 target) s (s.redirected c (s.core c) target))
      ∧ (∀ m, m ∈ modes → Completes (.bankRegWrite core 15#4 m target) s (s.redirected c (s.core c) target))

/-- `STATUS_WRITE` of a legal mode (R174): all of the status is written; a change of mode or of the encoding refills the
pipeline, with the new width, from the next sequential instruction, which is W of the old encoding below `pc`; and I
going from 1 to 0 asks for a delivery.  No saved status is touched. -/
def Obligations.StatusWriteSwitchesMode : Prop :=
  ∀ (s : State) (core : BitVec 8) (c : CoreId) (value : Word), coreOf core = some c → modeOf value ∈ modes →
    let k := s.core c
    let t :=
      if modeOf value ≠ modeOf k.status ∨ compact value ≠ compact k.status then
        s.redirected c { k with status := value } (k.pc - (if compact k.status = true then 2#32 else 4#32))
      else { s with cores := s.cores.set c { k with status := value } }
    Completes (.statusWrite core value) s
      (if irqMasked k.status = true ∧ irqMasked value = false then t.checked c else t)

/-- `SAVED_STATUS_READ` and `SAVED_STATUS_WRITE` reach the saved status of the current bank and no other (R177, R179);
in USR and SYS mode a read logs `E_BAD_SPSR` and completes, with an unspecified response (R178). -/
def Obligations.SavedStatusOfTheCurrentBank : Prop :=
  ∀ (s : State) (core : BitVec 8) (c : CoreId), coreOf core = some c →
    (∀ b, bankOf (modeOf (s.core c).status) = some (.priv b) →
        Returns (.savedStatusRead core) s s (((s.core c).saved b).setWidth 64)
          ∧ ∀ value, ∃ k : CpuContext,
            Completes (.savedStatusWrite core value) s { s with cores := s.cores.set c k }
              ∧ k.saved b = value ∧ (∀ d, d ≠ b → k.saved d = (s.core c).saved d)
              ∧ k = { s.core c with
                      savedFiq := k.savedFiq, savedIrq := k.savedIrq, savedSvc := k.savedSvc,
                      savedAbt := k.savedAbt, savedUnd := k.savedUnd })
      ∧ (normalMode (modeOf (s.core c).status) →
        Completes (.savedStatusRead core) s
          { s with errFlags := s.errFlags ||| 0x400#16, errLast := opWord (.savedStatusRead core) })

/-! ## Exceptions (`60_exceptions.md`) -/

/-- The table of R250: vector offset, target mode, and which types set F. -/
def Obligations.ExceptionTable : Prop :=
  (∀ code x, excOf code = some x → vecOffset x = BitVec.ofNat 32 (4 * code.toNat)
      ∧ (excMasksFiq x = true ↔ code = 0#3 ∨ code = 7#3))
    ∧ (∀ code : BitVec 3, excOf code = none ↔ code = 5#3)
    ∧ (excOf 0#3).map excMode = some 0x13#5 ∧ (excOf 1#3).map excMode = some 0x1B#5
    ∧ (excOf 2#3).map excMode = some 0x13#5 ∧ (excOf 3#3).map excMode = some 0x17#5
    ∧ (excOf 4#3).map excMode = some 0x17#5 ∧ (excOf 6#3).map excMode = some 0x12#5
    ∧ (excOf 7#3).map excMode = some 0x11#5
    ∧ ∀ x, bankOf (excMode x) = some (.priv (excBank x))

/-- Taking an exception (R252): the old status goes to the saved status of the target mode, the link value to its
register 14 and to no other register, the status gets the target mode, T 0, I 1, F 1 for RESET and FIQ, its other bits
as they were, and the pipeline is refilled from the vector.  Nothing else changes: no other register or saved status,
not `ready_at`, not the halted mask, no other core. -/
def Obligations.ExceptionEntry : Prop :=
  ∀ (s : State) (c : CoreId) (x : Exc),
    let k := s.core c
    ∃ l : CpuContext,
      SameButCount (s.excEntry c x) (s.redirected c l (k.excBase + vecOffset x))
        ∧ modeOf l.status = excMode x ∧ compact l.status = false ∧ irqMasked l.status = true
        ∧ (fiqMasked l.status = true ↔ fiqMasked k.status = true ∨ excMasksFiq x = true)
        ∧ l.status.extractLsb' 8 24 = k.status.extractLsb' 8 24
        ∧ l.saved (excBank x) = k.status ∧ (∀ b, b ≠ excBank x → l.saved b = k.saved b)
        ∧ (∀ n d j, bankOf n = some d → sameRegister (excMode x) 14#4 n j →
            l.readSlot (phys d j) = k.pc + (if compact k.status = true then 2#32 else 0#32))
        ∧ (∀ n d j, bankOf n = some d → j ≠ 15#4 → ¬ sameRegister (excMode x) 14#4 n j →
            l.readSlot (phys d j) = k.readSlot (phys d j))
        ∧ l.readyAt = k.readyAt ∧ l.halted = k.halted ∧ l.excBase = k.excBase

/-- `TRAP` of a legal type takes `back` off `pc` and enters the exception (R182); with `back` 4 the link register gets
the address of the instruction after the trapping one, which is W below `pc`, in either encoding. -/
def Obligations.TrapEntersTheException : Prop :=
  ∀ (s : State) (core : BitVec 8) (c : CoreId) (exc : BitVec 3) (x : Exc) (back : Word),
    coreOf core = some c → excOf exc = some x →
      let k := { s.core c with pc := (s.core c).pc - back }
      Completes (.trap core exc back) s ({ s with cores := s.cores.set c k }.excEntry c x)
        ∧ (back = 4#32 → k.entryLink = (s.core c).pc - (if compact k.status = true then 2#32 else 4#32))

/-- `EXC_RETURN` from a mode that has a saved status with a legal mode (R183, R258): the status is restored whole, the
pipeline is refilled from the target with the restored width, and I going from 1 to 0 asks for a delivery.  The saved
status and the link register are not changed. -/
def Obligations.ExceptionReturnRestores : Prop :=
  ∀ (s : State) (core : BitVec 8) (c : CoreId) (target : Word) (b : PrivBank), coreOf core = some c →
    bankOf (modeOf (s.core c).status) = some (.priv b) → modeOf ((s.core c).saved b) ∈ modes →
      let k := s.core c
      let t := s.redirected c { k with status := k.saved b } target
      Completes (.excReturn core target) s
        (if irqMasked k.status = true ∧ irqMasked (k.saved b) = false then t.checked c else t)

/-! ## Interrupt controller (`43_interrupt_controller.md`) -/

/-- The interrupt line (R204): for the management core some type is pending and enabled; for a symmetric core both gates
are open and some type is pending and enabled.  `Kick` (R202): unless the guard is set, the delivery task of the target
is inserted at the fixed latency and the guard is set; else nothing happens. -/
def Obligations.LineAndKick : Prop :=
  ∀ s : State,
    (s.line 4 = true ↔ ∃ y : Fin 32, s.mgmtPending.getLsbD y.val = true ∧ s.mgmtEnable.getLsbD y.val = true)
      ∧ (∀ c : SymId, s.line c.castSucc = true ↔
        s.distEnable = true ∧ s.sym[c].localEnable = true
          ∧ ∃ y : IrqType, s.sym[c].pend.getLsbD y.val = true ∧ s.sym[c].enab.getLsbD y.val = true)
      ∧ ∀ t : CoreId, s.kick t = s.kicked t

/-- `SEND_IRQ` (R201): to the management core it sets the pending bit and kicks; to a symmetric core it does so only if
the routing table lists it; a broadcast does so to every listed core in ascending order.  Neither enables nor halted
masks matter. -/
def Obligations.SendSetsPendingAndKicks : Prop :=
  ∀ (s : State) (target : BitVec 8) (type : BitVec 16),
    (target.toNat = 4 → type.toNat < 32 →
        Completes (.sendIrq target type) s
          ({ s with mgmtPending := s.mgmtPending ||| (1#32 <<< type.toNat) }.kicked 4))
      ∧ (∀ (c : SymId) (y : IrqType), target.toNat = c.val → type.toNat = y.val →
        Completes (.sendIrq target type) s (s.sentTo c y))
      ∧ (∀ y : IrqType, target.toNat = 5 → type.toNat = y.val →
        Completes (.sendIrq target type) s (s.sentToAll y))

/-- Coalescing (R206): a second send to the same target before the delivery, be it the management core, a symmetric
core or the broadcast, adds its pending bits and no event: the guard of every target of the first send is set, and the
queue and the guards stay as the first send left them. -/
def Obligations.SendsCoalesce : Prop :=
  ∀ (s t u : State) (target : BitVec 8) (type type' : BitVec 16),
    exec (.sendIrq target type) s = .next t → exec (.sendIrq target type') t = .next u →
      (target.toNat = 4 → type.toNat < 32 → type'.toNat < 32 →
          u.queue = t.queue ∧ u.guard = t.guard ∧ t.guard[4] = true
            ∧ u.mgmtPending = s.mgmtPending ||| (1#32 <<< type.toNat) ||| (1#32 <<< type'.toNat))
        ∧ ∀ y y' : IrqType, type.toNat = y.val → type'.toNat = y'.val →
          let sent := fun (c : SymId) (z : IrqType) => if s.route[z].getLsbD c.val = true then 1#128 <<< z.val else 0#128
          (∀ c : SymId, target.toNat = c.val → s.route[y].getLsbD c.val = true →
              u.queue = t.queue ∧ u.guard = t.guard ∧ t.guard[c.castSucc] = true
                ∧ u.sym[c].pend = s.sym[c].pend ||| sent c y ||| sent c y')
            ∧ (target.toNat = 5 →
              (∀ c : SymId, s.route[y].getLsbD c.val = true → t.guard[c.castSucc] = true)
                ∧ (∀ c : SymId, u.sym[c].pend = s.sym[c].pend ||| sent c y ||| sent c y')
                ∧ ((∀ c : SymId, s.route[y'].getLsbD c.val = true → s.route[y].getLsbD c.val = true) →
                  u.queue = t.queue ∧ u.guard = t.guard))

/-- `SGI` (R215): the pending bit, the sender and a kick for every core of the target set, in ascending order: the mask
in mode 0, every other core in mode 1, the sender itself in mode 2.  The routing table does not matter. -/
def Obligations.SgiReachesItsTargets : Prop :=
  ∀ (s : State) (core : BitVec 8) (i : SymId) (type : BitVec 10) (y : Fin 16) (mask : BitVec 4) (mode : BitVec 2),
    symOf core = some i → type.toNat = y.val → mode.toNat ≠ 3 →
      ∃ T : BitVec 4,
        Completes (.sgi core type mask mode) s
            ((((s.sgiSentTo i y T 0).sgiSentTo i y T 1).sgiSentTo i y T 2).sgiSentTo i y T 3)
          ∧ (mode.toNat = 0 → T = mask)
          ∧ (mode.toNat = 1 → ∀ c : SymId, T.getLsbD c.val = true ↔ c ≠ i)
          ∧ (mode.toNat = 2 → ∀ c : SymId, T.getLsbD c.val = true ↔ c = i)

/-- The management core's registers (R217 to R220). -/
def Obligations.ManagementRegisters : Prop :=
  ∀ s : State,
    (∀ value, Completes (.mgmtEnableWrite value) s ({ s with mgmtEnable := value }.checked 4))
      ∧ (∀ mask, Completes (.mgmtPendClear mask) s { s with mgmtPending := s.mgmtPending &&& ~~~mask })
      ∧ Returns .mgmtPendRead s s (s.mgmtPending.setWidth 64)
      ∧ Returns .mgmtEnableRead s s (s.mgmtEnable.setWidth 64)

/-- The distributor's enables (R221 to R224): the gates and the enable bits are written, and every write but that of
`IRQ_ENABLE_CLEAR` asks for a delivery of the cores whose line it may have raised. -/
def Obligations.DistributorEnables : Prop :=
  ∀ s : State,
    (∀ value : BitVec 1,
        Completes (.distEnableWrite value) s
          (((({ s with distEnable := decide (value = 1#1) }.checked 0).checked 1).checked 2).checked 3))
      ∧ ∀ (core : BitVec 8) (c : SymId), symOf core = some c →
        (∀ value : BitVec 1,
            Completes (.localEnableWrite core value) s
              ({ s with sym := s.sym.set c { s.sym[c] with localEnable := decide (value = 1#1) } }.checked c.castSucc))
          ∧ ∀ (type : BitVec 16) (y : IrqType), type.toNat = y.val →
            Completes (.irqEnableSet core type) s
                ({ s with sym := s.sym.set c { s.sym[c] with enab := s.sym[c].enab ||| (1#128 <<< y.val) } }.checked
                  c.castSucc)
              ∧ Completes (.irqEnableClear core type) s
                { s with sym := s.sym.set c { s.sym[c] with enab := s.sym[c].enab &&& ~~~(1#128 <<< y.val) } }

/-- `IRQ_ACK` returns and claims the lowest-numbered pending-and-enabled type, with the recorded sender for types 0 to
15; with a gate closed or nothing pending and enabled it returns 1023 and claims nothing (R226, R100). -/
def Obligations.AcknowledgeClaimsTheLowest : Prop :=
  ∀ (s : State) (core : BitVec 8) (c : SymId), symOf core = some c →
    let k := s.sym[c]
    (s.distEnable = false ∨ k.localEnable = false ∨ k.pend &&& k.enab = 0#128 → Returns (.irqAck core) s s 1023#64)
      ∧ ∀ y : IrqType, s.distEnable = true → k.localEnable = true →
        (k.pend &&& k.enab).getLsbD y.val = true →
        (∀ z : IrqType, z < y → (k.pend &&& k.enab).getLsbD z.val = false) →
          Returns (.irqAck core) s
            { s with
              sym := s.sym.set c
                { k with pend := k.pend &&& ~~~(1#128 <<< y.val), active := k.active ||| (1#128 <<< y.val) } }
            (BitVec.ofNat 64 ((if h : y.val < 16 then k.src[y.val].toNat else 0) * 1024 + y.val))

/-- `IRQ_EOI` clears the active bit of the type and asks for a delivery (R227). -/
def Obligations.EndOfInterrupt : Prop :=
  ∀ (s : State) (core : BitVec 8) (c : SymId) (type : BitVec 16) (y : IrqType),
    symOf core = some c → type.toNat = y.val →
      Completes (.irqEoi core type) s
        ({ s with sym := s.sym.set c { s.sym[c] with active := s.sym[c].active &&& ~~~(1#128 <<< y.val) } }.checked
          c.castSucc)

/-- A delivery (R205): the guard is cleared; to an extra core it is withheld unless the core is started, and marks the
core as running if it is; if the line is then asserted the core's interrupt wait ends, whatever its I bit, and the
interrupt exception is entered if I is 0.  No pending bit is cleared. -/
def Obligations.DeliveryWakesAndEnters : Prop :=
  ∀ (s : State) (t : CoreId) (i : Instr),
    (t, i) ∈ [((0 : CoreId), Instr.tIrqDeliver0), (1, .tIrqDeliver1), (2, .tIrqDeliver2), (3, .tIrqDeliver3),
        (4, .tIrqDeliver4)] →
      let g := { s with guard := s.guard.set t false }
      let x := fun e : Fin 2 => { g with extra := s.extra.set e { s.extra[e] with xrunning := true } }
      let d := if t = 2 then x 0 else if t = 3 then x 1 else g
      let w := { d with cores := s.cores.set t { s.core t with halted := (s.core t).halted &&& 0xFE#8 } }
      ((t = 2 ∧ s.extra[0].started = false ∨ t = 3 ∧ s.extra[1].started = false) → Completes i s g)
        ∧ (¬ (t = 2 ∧ s.extra[0].started = false ∨ t = 3 ∧ s.extra[1].started = false) →
            (s.line t = false → Completes i s d)
              ∧ (s.line t = true → irqMasked (s.core t).status = true → Completes i s w)
              ∧ (s.line t = true → irqMasked (s.core t).status = false → Completes i s (w.excEntry t .irq)))

/-! ## Halt and wake, extra cores, performance mode -/

/-- `HALT` and `WAIT_IRQ` (R210, R211, R212, R184): the reason bit is set; if a symmetric core was named and all four
are then halted, a changed performance mode takes effect, is announced, and interrupts the cores routed for it; if an
extra core with a shutdown pending was named it is marked stopped, and with both stopped the configuration task is
scheduled at once.  That the memory map's windows stand still when the mode is announced is the model's choice (log
entry 29). -/
def Obligations.HaltProcedure : Prop :=
  ∀ (s : State) (core reason : BitVec 8) (c : CoreId) (r : Fin 8) (i : Instr), coreOf core = some c →
    (i = .halt core reason ∧ reason.toNat = r.val ∨ i = .waitIrq core ∧ r = 0) →
      let h := { s with
        cores := s.cores.set c { s.core c with halted := (s.core c).halted ||| (1#8 <<< r.val) } }
      let p :=
        if c ≠ 4 ∧ (∀ d : CoreId, d ≠ 4 → (h.core d).halted ≠ 0#8) ∧ s.perfCfg ≠ s.perfEff then
          { h with perfEff := s.perfCfg, out := .memcfgUpdate s.perfCfg :: s.out }.sentToAll s.params.perfIrqType
        else h
      let stop := fun (e f : Fin 2) =>
        if s.extra[e].shutdownPending = true then
          let q := { p with extra := s.extra.set e ⟨false, false, false⟩ }
          if s.extra[f].started = false then q.withEvent 2#8 0#64 else q
        else p
      Completes i s (if c = 2 then stop 0 1 else if c = 3 then stop 1 0 else p)

/-- `UNHALT` clears the reason bit and does nothing else (R214). -/
def Obligations.UnhaltClearsTheReason : Prop :=
  ∀ (s : State) (core reason : BitVec 8) (c : CoreId) (r : Fin 8), coreOf core = some c → reason.toNat = r.val →
    Completes (.unhalt core reason) s
      { s with cores := s.cores.set c { s.core c with halted := (s.core c).halted &&& ~~~(1#8 <<< r.val) } }

/-- The commands for the extra cores 2 and 3 (R230, R231). -/
def Obligations.ExtraCoreCommands : Prop :=
  ∀ (s : State) (core : BitVec 8) (e : Fin 2), core.toNat = e.val + 2 →
    Completes (.xcoreStart core) s
        ({ s with extra := s.extra.set e { s.extra[e] with started := true, shutdownPending := false } }.withEvent
          2#8 0#64)
      ∧ (s.extra[e].started = true →
        Completes (.xcoreShutdownReq core) s
          { s with extra := s.extra.set e { s.extra[e] with shutdownPending := true } })
      ∧ (s.extra[e].started = false → Completes (.xcoreShutdownReq core) s s)

/-- The plain register writes: `EXC_BASE_WRITE` writes the exception base of its core and moves nothing (R257),
`ROUTE_WRITE` the routing mask of one type and no pending bit (R225), `PERF_MODE_WRITE` the configured mode and nothing
else (R232). -/
def Obligations.PlainRegisterWrites : Prop :=
  ∀ s : State,
    (∀ (core : BitVec 8) (c : CoreId) (value : Word), coreOf core = some c →
        Completes (.excBaseWrite core value) s { s with cores := s.cores.set c { s.core c with excBase := value } })
      ∧ (∀ (type : BitVec 16) (y : IrqType) (mask : BitVec 4), type.toNat = y.val →
        Completes (.routeWrite type mask) s { s with route := s.route.set y mask })
      ∧ (∀ value : Word, Completes (.perfModeWrite value) s { s with perfCfg := value })

/-! ## Reset (`70_reset_and_hazards.md`, `10_state.md` R49) -/

/-- The values of the table of R49, but for what the pipelines hold. -/
def ResetTable (t : State) : Prop :=
  t.now = 0#64 ∧ t.queue = [⟨0#8, t.params.rebaseHorizon⟩] ∧ t.running = false ∧ t.fourCore = false
    ∧ (∀ c, (t.core c).readyAt = 0#64 ∧ (t.core c).status = 0xD3#32
        ∧ (t.core c).pc = BitVec.ofNat 32 (t.params.bootPc[c].toNat / 4 * 4) + 4#32
        ∧ (t.core c).excBase = t.params.excBaseReset[c]
        ∧ (t.core c).halted = if c = 2 ∨ c = 3 then 0x01#8 else 0x00#8)
    ∧ t.mgmtPending = 0#32 ∧ t.mgmtEnable = 0#32 ∧ t.distEnable = false
    ∧ (∀ c : SymId, t.sym[c].localEnable = false ∧ t.sym[c].pend = 0#128 ∧ t.sym[c].enab = 0#128
        ∧ t.sym[c].active = 0#128 ∧ ∀ y : Fin 16, t.sym[c].src[y] = 0#2)
    ∧ (∀ y : IrqType, t.route[y] = 0#4) ∧ (∀ c : CoreId, t.guard[c] = false)
    ∧ (∀ e : Fin 2, t.extra[e].started = false ∧ t.extra[e].xrunning = false ∧ t.extra[e].shutdownPending = false)
    ∧ t.perfCfg = 0#32 ∧ t.perfEff = 0#32 ∧ t.errFlags = 0#16 ∧ t.errLast = 0#96

/-- `RESET` with the boot image present (R290, R291): the table of R49 holds, the engine is idle, the ten fetches have
been made in core order, the lower address first, the pipelines hold what the memory port answered to them, and every
byte of the memory reads as before.  That the parameters and the inputs of the outside agents are as they were is the
model's reading of R290 and R10 (log entry 24). -/
def Obligations.ResetReachesTheResetTable : Prop :=
  ∀ s : State, s.bootImageOk = true →
    let a := fun c : CoreId => BitVec.ofNat 32 (s.params.bootPc[c].toNat / 4 * 4)
    ∃ t, exec .reset s = .next t ∧ ResetTable t ∧ t.phase = .idle
      ∧ (∀ a, t.byteAt a = s.byteAt a)
      ∧ t.params = s.params ∧ t.hostIn = s.hostIn
      ∧ (∃ v : CoreId → Word × Word,
          t.out = (([4, 3, 2, 1, 0] : List CoreId).flatMap fun c =>
            [Output.memRead c (a c + 4#32) .word (v c).2, Output.memRead c (a c) .word (v c).1]) ++ s.out
            ∧ (∀ c, (t.core c).pipe0 = (v c).1 ∧ (t.core c).pipe1 = (v c).2)
            ∧ ∀ c, (∃ n, (v c).1 = { s with freeCount := n }.memAnswer c (a c) .word)
              ∧ ∃ n, (v c).2 = { s with freeCount := n }.memAnswer c (a c + 4#32) .word)

/-- The machine's state after reset is one of the states R49 allows, whatever the parameters and the memory, and its
pipelines hold what the memory holds at the boot address (R49).  What R49 leaves unspecified is 0 in it: the model's
choice (log entry 11), of which this says nothing.  It is the model's choice, too, that `State.reset` has the parameters
`Params.default` (log entry 1), that the memory is little-endian (log entry 2), and that no window answers the ten
fetches of the power-on state (log entry 3). -/
def Obligations.PowerOnStateIsTheResetTable : Prop :=
  State.reset = State.resetWith Params.default []
    ∧ ∀ (p : Params) (m : List Host.Cell),
      ResetTable (State.resetWith p m) ∧ (State.resetWith p m).phase = .idle ∧ (State.resetWith p m).mem = m
        ∧ ∀ c, ((State.resetWith p m).core c).pipe0 = Memory.load m (BitVec.ofNat 32 (p.bootPc[c].toNat / 4 * 4)) .word
          ∧ ((State.resetWith p m).core c).pipe1
            = Memory.load m (BitVec.ofNat 32 (p.bootPc[c].toNat / 4 * 4) + 4#32) .word

/-- Without the boot image the reset sequence does not complete: SEB stays in reset and takes no command (R291, R292).
That it waits in a state of its own is the model's choice (log entry 21). -/
def Obligations.ResetWaitsForTheBootImage : Prop :=
  ∀ s : State, s.bootImageOk = false →
    exec .reset s = .next { s with phase := .inReset } ∧ (s.phase = .inReset → step s = .next s)

/-! ## Rules about the whole machine -/

/-- The invariants hold in the state after reset, for all parameters that are as R10 says and every memory in canonical
form. -/
def Obligations.InvariantsHoldAtReset : Prop :=
  ∀ (p : Params) (m : List Host.Cell), p.wf = true → Memory.wf m = true →
    let s := State.resetWith p m
    TimeInv s ∧ GuardInv s ∧ ContextsOk s ∧ MemoryOk s ∧ LogOk s ∧ IdleStopped s

/-- Every step keeps the clock and the queue as R50 (I-1, I-2, I-3), R103 and R132 say: the queue sorted, no event in
the past, exactly one `T_REBASE` pending and within the horizon, every task bound, no ready-at cycle too far ahead. -/
def Obligations.TimeInvariantIsKept : Prop := ∀ s t : State, TimeInv s → step s = .next t → TimeInv t

/-- Every step keeps I-4 of R50: a guard is set exactly when one delivery to its target is pending. -/
def Obligations.GuardInvariantIsKept : Prop := ∀ s t : State, GuardInv s → step s = .next t → GuardInv t

/-- Every step keeps every context with a legal mode, a `pc` aligned to the current encoding, and in the compact
encoding two zero-extended 16-bit opcodes (R31, R35, R75). -/
def Obligations.ContextInvariantIsKept : Prop := ∀ s t : State, ContextsOk s → step s = .next t → ContextsOk t

/-- Every step keeps the memory in canonical form, and only a store of an executor or of a callback changes a byte of
it: "SEB never writes memory" (R72). -/
def Obligations.MemoryIsWrittenByStoresOnly : Prop :=
  ∀ s t : State, step s = .next t →
    (MemoryOk s → MemoryOk t)
      ∧ ((∃ a, t.byteAt a ≠ s.byteAt a) →
        (∃ c opcode cs a n v, s.phase = .inStep c opcode cs ∧ s.execAction c opcode = .memWrite a n v)
          ∨ ∃ task a n v, s.phase = .callback task ∧ s.callbackAction task = .memWrite a n v)

/-- No SEB operation blocks or stops the engine (R9, R262): from every state as the invariant of the clock says, a step
answers a next state, unless the executor breaks its contract (R150 (c)): a cost out of range, or `Unrecognized` after it
has changed state.  That these two stop, and that a `fault(E)` of R11 does not, is the model's choice (log entries 17, 23
and 13). -/
def Obligations.EngineNeverStops : Prop :=
  ∀ s : State, TimeInv s →
    (∃ t, step s = .next t)
      ∨ ∃ c opcode cs, s.phase = .inStep c opcode cs
        ∧ ((∃ cost, s.execAction c opcode = .done cost ∧ ¬ (1 ≤ cost.toNat ∧ cost.toNat < 2147483648))
          ∨ (s.execAction c opcode = .unrecognized ∧ s.stepChanged = true))

/-- `now` is "monotonic except at rebase" (R20): a step that makes it smaller dispatches `T_REBASE` or runs the reset
sequence. -/
def Obligations.ClockIsMonotonic : Prop :=
  ∀ s t : State, TimeInv s → step s = .next t → t.now < s.now →
    (s.phase = .eventPhase ∧ ∃ e q, s.queue = e :: q ∧ e.task = 0#8 ∧ e.due ≤ s.now)
      ∨ (s.phase = .idle ∧ ∃ rest, s.hostIn = opWord .reset :: rest) ∨ s.phase = .inReset

/-- Every event is dispatched at its due cycle exactly (R127): when the event phase removes an event and runs its task,
`now` is the cycle the event was due at. -/
def Obligations.EventsRunAtTheirDueCycle : Prop :=
  ∀ (s : State) (e : Event) (q : List Event), TimeInv s → s.phase = .eventPhase → s.queue = e :: q →
    (e.due ≤ s.now → s.now = e.due ∧ step s = exec (decodeTask e.task) { s with queue := q })
      ∧ (s.now < e.due → ∀ t, step s = .next t → t.queue = s.queue)

/-- The registers, `pc`, status, saved statuses and pipeline of a core, and its ready-at cycle. -/
def sameOwn (k l : CpuContext) : Prop := l = { k with halted := l.halted, excBase := l.excBase }

/-- "Each CpuContext is mutated only by its own execution step (no cross-core register writes)" (R47): a step that
changes more of a core's context than its halted mask and its exception base is a step of that core, a delivery to it,
a rebase, or the reset sequence. -/
def Obligations.ContextIsMutatedByItsOwnStep : Prop :=
  ∀ (s t : State) (c : CoreId), step s = .next t → ¬ sameOwn (s.core c) (t.core c) →
    (∃ opcode cs, s.phase = .inStep c opcode cs) ∨ (∃ cs, s.phase = .visit (c :: cs))
      ∨ (s.phase = .eventPhase ∧ ∃ e q, s.queue = e :: q ∧ (e.task.toNat = 3 + c.val ∨ e.task.toNat = 0))
      ∨ (s.phase = .idle ∧ ∃ rest, s.hostIn = opWord .reset :: rest) ∨ s.phase = .inReset

/-- "Exactly one task (the end-of-frame boundary) clears this flag": `running` goes from 1 to 0 only in a dispatch of
`T_END_FRAME`, and the engine is idle only with it clear (R24, R157); `four_core` is written only by `T_CORE_CONFIG`,
so never inside a pass (R25, R158, R310).  The reset sequence clears both. -/
def Obligations.EngineFlagsAreWrittenByTheirTasks : Prop :=
  ∀ s t : State, step s = .next t →
    (IdleStopped s → IdleStopped t)
      ∧ (s.running = true → t.running = false →
        (s.phase = .eventPhase ∧ ∃ e q, s.queue = e :: q ∧ e.task = 1#8)
          ∨ (s.phase = .idle ∧ ∃ rest, s.hostIn = opWord .reset :: rest) ∨ s.phase = .inReset)
      ∧ (t.fourCore ≠ s.fourCore →
        (s.phase = .eventPhase ∧ ∃ e q, s.queue = e :: q ∧ e.task = 2#8)
          ∨ (s.phase = .idle ∧ ∃ rest, s.hostIn = opWord .reset :: rest) ∨ s.phase = .inReset)
end

