-- ==== Sys2Proof/Laws/State.lean ====
section
/-! SUPPORT. One lemma for each field of each update of State, so that no proof unfolds a record update. -/

namespace Sys2Proof.Machine

/-! ## `State.setCore` -/

@[simp] theorem State.setCore_params (s : State) (c : CoreId) (k : CpuContext) : (s.setCore c k).params = s.params := rfl
@[simp] theorem State.setCore_bootImageOk (s : State) (c : CoreId) (k : CpuContext) : (s.setCore c k).bootImageOk = s.bootImageOk := rfl
@[simp] theorem State.setCore_now (s : State) (c : CoreId) (k : CpuContext) : (s.setCore c k).now = s.now := rfl
@[simp] theorem State.setCore_queue (s : State) (c : CoreId) (k : CpuContext) : (s.setCore c k).queue = s.queue := rfl
@[simp] theorem State.setCore_running (s : State) (c : CoreId) (k : CpuContext) : (s.setCore c k).running = s.running := rfl
@[simp] theorem State.setCore_fourCore (s : State) (c : CoreId) (k : CpuContext) : (s.setCore c k).fourCore = s.fourCore := rfl
@[simp] theorem State.setCore_mgmtPending (s : State) (c : CoreId) (k : CpuContext) : (s.setCore c k).mgmtPending = s.mgmtPending := rfl
@[simp] theorem State.setCore_mgmtEnable (s : State) (c : CoreId) (k : CpuContext) : (s.setCore c k).mgmtEnable = s.mgmtEnable := rfl
@[simp] theorem State.setCore_distEnable (s : State) (c : CoreId) (k : CpuContext) : (s.setCore c k).distEnable = s.distEnable := rfl
@[simp] theorem State.setCore_sym (s : State) (c : CoreId) (k : CpuContext) : (s.setCore c k).sym = s.sym := rfl
@[simp] theorem State.setCore_route (s : State) (c : CoreId) (k : CpuContext) : (s.setCore c k).route = s.route := rfl
@[simp] theorem State.setCore_guard (s : State) (c : CoreId) (k : CpuContext) : (s.setCore c k).guard = s.guard := rfl
@[simp] theorem State.setCore_extra (s : State) (c : CoreId) (k : CpuContext) : (s.setCore c k).extra = s.extra := rfl
@[simp] theorem State.setCore_perfCfg (s : State) (c : CoreId) (k : CpuContext) : (s.setCore c k).perfCfg = s.perfCfg := rfl
@[simp] theorem State.setCore_perfEff (s : State) (c : CoreId) (k : CpuContext) : (s.setCore c k).perfEff = s.perfEff := rfl
@[simp] theorem State.setCore_errFlags (s : State) (c : CoreId) (k : CpuContext) : (s.setCore c k).errFlags = s.errFlags := rfl
@[simp] theorem State.setCore_errLast (s : State) (c : CoreId) (k : CpuContext) : (s.setCore c k).errLast = s.errLast := rfl
@[simp] theorem State.setCore_resp (s : State) (c : CoreId) (k : CpuContext) : (s.setCore c k).resp = s.resp := rfl
@[simp] theorem State.setCore_phase (s : State) (c : CoreId) (k : CpuContext) : (s.setCore c k).phase = s.phase := rfl
@[simp] theorem State.setCore_faultMarks (s : State) (c : CoreId) (k : CpuContext) : (s.setCore c k).faultMarks = s.faultMarks := rfl
@[simp] theorem State.setCore_mem (s : State) (c : CoreId) (k : CpuContext) : (s.setCore c k).mem = s.mem := rfl
@[simp] theorem State.setCore_hostIn (s : State) (c : CoreId) (k : CpuContext) : (s.setCore c k).hostIn = s.hostIn := rfl
@[simp] theorem State.setCore_answers (s : State) (c : CoreId) (k : CpuContext) : (s.setCore c k).answers = s.answers := rfl
@[simp] theorem State.setCore_stepChanged (s : State) (c : CoreId) (k : CpuContext) : (s.setCore c k).stepChanged = s.stepChanged := rfl
@[simp] theorem State.setCore_out (s : State) (c : CoreId) (k : CpuContext) : (s.setCore c k).out = s.out := rfl
@[simp] theorem State.setCore_freeCount (s : State) (c : CoreId) (k : CpuContext) : (s.setCore c k).freeCount = s.freeCount := rfl

/-! ## `State.setSymIrq` -/

@[simp] theorem State.setSymIrq_params (s : State) (c : SymId) (k : SymIrq) : (s.setSymIrq c k).params = s.params := rfl
@[simp] theorem State.setSymIrq_bootImageOk (s : State) (c : SymId) (k : SymIrq) : (s.setSymIrq c k).bootImageOk = s.bootImageOk := rfl
@[simp] theorem State.setSymIrq_now (s : State) (c : SymId) (k : SymIrq) : (s.setSymIrq c k).now = s.now := rfl
@[simp] theorem State.setSymIrq_queue (s : State) (c : SymId) (k : SymIrq) : (s.setSymIrq c k).queue = s.queue := rfl
@[simp] theorem State.setSymIrq_running (s : State) (c : SymId) (k : SymIrq) : (s.setSymIrq c k).running = s.running := rfl
@[simp] theorem State.setSymIrq_fourCore (s : State) (c : SymId) (k : SymIrq) : (s.setSymIrq c k).fourCore = s.fourCore := rfl
@[simp] theorem State.setSymIrq_cores (s : State) (c : SymId) (k : SymIrq) : (s.setSymIrq c k).cores = s.cores := rfl
@[simp] theorem State.setSymIrq_mgmtPending (s : State) (c : SymId) (k : SymIrq) : (s.setSymIrq c k).mgmtPending = s.mgmtPending := rfl
@[simp] theorem State.setSymIrq_mgmtEnable (s : State) (c : SymId) (k : SymIrq) : (s.setSymIrq c k).mgmtEnable = s.mgmtEnable := rfl
@[simp] theorem State.setSymIrq_distEnable (s : State) (c : SymId) (k : SymIrq) : (s.setSymIrq c k).distEnable = s.distEnable := rfl
@[simp] theorem State.setSymIrq_route (s : State) (c : SymId) (k : SymIrq) : (s.setSymIrq c k).route = s.route := rfl
@[simp] theorem State.setSymIrq_guard (s : State) (c : SymId) (k : SymIrq) : (s.setSymIrq c k).guard = s.guard := rfl
@[simp] theorem State.setSymIrq_extra (s : State) (c : SymId) (k : SymIrq) : (s.setSymIrq c k).extra = s.extra := rfl
@[simp] theorem State.setSymIrq_perfCfg (s : State) (c : SymId) (k : SymIrq) : (s.setSymIrq c k).perfCfg = s.perfCfg := rfl
@[simp] theorem State.setSymIrq_perfEff (s : State) (c : SymId) (k : SymIrq) : (s.setSymIrq c k).perfEff = s.perfEff := rfl
@[simp] theorem State.setSymIrq_errFlags (s : State) (c : SymId) (k : SymIrq) : (s.setSymIrq c k).errFlags = s.errFlags := rfl
@[simp] theorem State.setSymIrq_errLast (s : State) (c : SymId) (k : SymIrq) : (s.setSymIrq c k).errLast = s.errLast := rfl
@[simp] theorem State.setSymIrq_resp (s : State) (c : SymId) (k : SymIrq) : (s.setSymIrq c k).resp = s.resp := rfl
@[simp] theorem State.setSymIrq_phase (s : State) (c : SymId) (k : SymIrq) : (s.setSymIrq c k).phase = s.phase := rfl
@[simp] theorem State.setSymIrq_faultMarks (s : State) (c : SymId) (k : SymIrq) : (s.setSymIrq c k).faultMarks = s.faultMarks := rfl
@[simp] theorem State.setSymIrq_mem (s : State) (c : SymId) (k : SymIrq) : (s.setSymIrq c k).mem = s.mem := rfl
@[simp] theorem State.setSymIrq_hostIn (s : State) (c : SymId) (k : SymIrq) : (s.setSymIrq c k).hostIn = s.hostIn := rfl
@[simp] theorem State.setSymIrq_answers (s : State) (c : SymId) (k : SymIrq) : (s.setSymIrq c k).answers = s.answers := rfl
@[simp] theorem State.setSymIrq_stepChanged (s : State) (c : SymId) (k : SymIrq) : (s.setSymIrq c k).stepChanged = s.stepChanged := rfl
@[simp] theorem State.setSymIrq_out (s : State) (c : SymId) (k : SymIrq) : (s.setSymIrq c k).out = s.out := rfl
@[simp] theorem State.setSymIrq_freeCount (s : State) (c : SymId) (k : SymIrq) : (s.setSymIrq c k).freeCount = s.freeCount := rfl

/-! ## `State.setExtra` -/

@[simp] theorem State.setExtra_params (s : State) (e : Fin 2) (k : ExtraCore) : (s.setExtra e k).params = s.params := rfl
@[simp] theorem State.setExtra_bootImageOk (s : State) (e : Fin 2) (k : ExtraCore) : (s.setExtra e k).bootImageOk = s.bootImageOk := rfl
@[simp] theorem State.setExtra_now (s : State) (e : Fin 2) (k : ExtraCore) : (s.setExtra e k).now = s.now := rfl
@[simp] theorem State.setExtra_queue (s : State) (e : Fin 2) (k : ExtraCore) : (s.setExtra e k).queue = s.queue := rfl
@[simp] theorem State.setExtra_running (s : State) (e : Fin 2) (k : ExtraCore) : (s.setExtra e k).running = s.running := rfl
@[simp] theorem State.setExtra_fourCore (s : State) (e : Fin 2) (k : ExtraCore) : (s.setExtra e k).fourCore = s.fourCore := rfl
@[simp] theorem State.setExtra_cores (s : State) (e : Fin 2) (k : ExtraCore) : (s.setExtra e k).cores = s.cores := rfl
@[simp] theorem State.setExtra_mgmtPending (s : State) (e : Fin 2) (k : ExtraCore) : (s.setExtra e k).mgmtPending = s.mgmtPending := rfl
@[simp] theorem State.setExtra_mgmtEnable (s : State) (e : Fin 2) (k : ExtraCore) : (s.setExtra e k).mgmtEnable = s.mgmtEnable := rfl
@[simp] theorem State.setExtra_distEnable (s : State) (e : Fin 2) (k : ExtraCore) : (s.setExtra e k).distEnable = s.distEnable := rfl
@[simp] theorem State.setExtra_sym (s : State) (e : Fin 2) (k : ExtraCore) : (s.setExtra e k).sym = s.sym := rfl
@[simp] theorem State.setExtra_route (s : State) (e : Fin 2) (k : ExtraCore) : (s.setExtra e k).route = s.route := rfl
@[simp] theorem State.setExtra_guard (s : State) (e : Fin 2) (k : ExtraCore) : (s.setExtra e k).guard = s.guard := rfl
@[simp] theorem State.setExtra_perfCfg (s : State) (e : Fin 2) (k : ExtraCore) : (s.setExtra e k).perfCfg = s.perfCfg := rfl
@[simp] theorem State.setExtra_perfEff (s : State) (e : Fin 2) (k : ExtraCore) : (s.setExtra e k).perfEff = s.perfEff := rfl
@[simp] theorem State.setExtra_errFlags (s : State) (e : Fin 2) (k : ExtraCore) : (s.setExtra e k).errFlags = s.errFlags := rfl
@[simp] theorem State.setExtra_errLast (s : State) (e : Fin 2) (k : ExtraCore) : (s.setExtra e k).errLast = s.errLast := rfl
@[simp] theorem State.setExtra_resp (s : State) (e : Fin 2) (k : ExtraCore) : (s.setExtra e k).resp = s.resp := rfl
@[simp] theorem State.setExtra_phase (s : State) (e : Fin 2) (k : ExtraCore) : (s.setExtra e k).phase = s.phase := rfl
@[simp] theorem State.setExtra_faultMarks (s : State) (e : Fin 2) (k : ExtraCore) : (s.setExtra e k).faultMarks = s.faultMarks := rfl
@[simp] theorem State.setExtra_mem (s : State) (e : Fin 2) (k : ExtraCore) : (s.setExtra e k).mem = s.mem := rfl
@[simp] theorem State.setExtra_hostIn (s : State) (e : Fin 2) (k : ExtraCore) : (s.setExtra e k).hostIn = s.hostIn := rfl
@[simp] theorem State.setExtra_answers (s : State) (e : Fin 2) (k : ExtraCore) : (s.setExtra e k).answers = s.answers := rfl
@[simp] theorem State.setExtra_stepChanged (s : State) (e : Fin 2) (k : ExtraCore) : (s.setExtra e k).stepChanged = s.stepChanged := rfl
@[simp] theorem State.setExtra_out (s : State) (e : Fin 2) (k : ExtraCore) : (s.setExtra e k).out = s.out := rfl
@[simp] theorem State.setExtra_freeCount (s : State) (e : Fin 2) (k : ExtraCore) : (s.setExtra e k).freeCount = s.freeCount := rfl

/-! ## `State.emit` -/

@[simp] theorem State.emit_params (s : State) (o : Output) : (s.emit o).params = s.params := rfl
@[simp] theorem State.emit_bootImageOk (s : State) (o : Output) : (s.emit o).bootImageOk = s.bootImageOk := rfl
@[simp] theorem State.emit_now (s : State) (o : Output) : (s.emit o).now = s.now := rfl
@[simp] theorem State.emit_queue (s : State) (o : Output) : (s.emit o).queue = s.queue := rfl
@[simp] theorem State.emit_running (s : State) (o : Output) : (s.emit o).running = s.running := rfl
@[simp] theorem State.emit_fourCore (s : State) (o : Output) : (s.emit o).fourCore = s.fourCore := rfl
@[simp] theorem State.emit_cores (s : State) (o : Output) : (s.emit o).cores = s.cores := rfl
@[simp] theorem State.emit_mgmtPending (s : State) (o : Output) : (s.emit o).mgmtPending = s.mgmtPending := rfl
@[simp] theorem State.emit_mgmtEnable (s : State) (o : Output) : (s.emit o).mgmtEnable = s.mgmtEnable := rfl
@[simp] theorem State.emit_distEnable (s : State) (o : Output) : (s.emit o).distEnable = s.distEnable := rfl
@[simp] theorem State.emit_sym (s : State) (o : Output) : (s.emit o).sym = s.sym := rfl
@[simp] theorem State.emit_route (s : State) (o : Output) : (s.emit o).route = s.route := rfl
@[simp] theorem State.emit_guard (s : State) (o : Output) : (s.emit o).guard = s.guard := rfl
@[simp] theorem State.emit_extra (s : State) (o : Output) : (s.emit o).extra = s.extra := rfl
@[simp] theorem State.emit_perfCfg (s : State) (o : Output) : (s.emit o).perfCfg = s.perfCfg := rfl
@[simp] theorem State.emit_perfEff (s : State) (o : Output) : (s.emit o).perfEff = s.perfEff := rfl
@[simp] theorem State.emit_errFlags (s : State) (o : Output) : (s.emit o).errFlags = s.errFlags := rfl
@[simp] theorem State.emit_errLast (s : State) (o : Output) : (s.emit o).errLast = s.errLast := rfl
@[simp] theorem State.emit_resp (s : State) (o : Output) : (s.emit o).resp = s.resp := rfl
@[simp] theorem State.emit_phase (s : State) (o : Output) : (s.emit o).phase = s.phase := rfl
@[simp] theorem State.emit_faultMarks (s : State) (o : Output) : (s.emit o).faultMarks = s.faultMarks := rfl
@[simp] theorem State.emit_mem (s : State) (o : Output) : (s.emit o).mem = s.mem := rfl
@[simp] theorem State.emit_hostIn (s : State) (o : Output) : (s.emit o).hostIn = s.hostIn := rfl
@[simp] theorem State.emit_answers (s : State) (o : Output) : (s.emit o).answers = s.answers := rfl
@[simp] theorem State.emit_stepChanged (s : State) (o : Output) : (s.emit o).stepChanged = s.stepChanged := rfl
@[simp] theorem State.emit_freeCount (s : State) (o : Output) : (s.emit o).freeCount = s.freeCount := rfl

/-! ## `State.respond` -/

@[simp] theorem State.respond_params (s : State) (v : BitVec 64) : (s.respond v).params = s.params := rfl
@[simp] theorem State.respond_bootImageOk (s : State) (v : BitVec 64) : (s.respond v).bootImageOk = s.bootImageOk := rfl
@[simp] theorem State.respond_now (s : State) (v : BitVec 64) : (s.respond v).now = s.now := rfl
@[simp] theorem State.respond_queue (s : State) (v : BitVec 64) : (s.respond v).queue = s.queue := rfl
@[simp] theorem State.respond_running (s : State) (v : BitVec 64) : (s.respond v).running = s.running := rfl
@[simp] theorem State.respond_fourCore (s : State) (v : BitVec 64) : (s.respond v).fourCore = s.fourCore := rfl
@[simp] theorem State.respond_cores (s : State) (v : BitVec 64) : (s.respond v).cores = s.cores := rfl
@[simp] theorem State.respond_mgmtPending (s : State) (v : BitVec 64) : (s.respond v).mgmtPending = s.mgmtPending := rfl
@[simp] theorem State.respond_mgmtEnable (s : State) (v : BitVec 64) : (s.respond v).mgmtEnable = s.mgmtEnable := rfl
@[simp] theorem State.respond_distEnable (s : State) (v : BitVec 64) : (s.respond v).distEnable = s.distEnable := rfl
@[simp] theorem State.respond_sym (s : State) (v : BitVec 64) : (s.respond v).sym = s.sym := rfl
@[simp] theorem State.respond_route (s : State) (v : BitVec 64) : (s.respond v).route = s.route := rfl
@[simp] theorem State.respond_guard (s : State) (v : BitVec 64) : (s.respond v).guard = s.guard := rfl
@[simp] theorem State.respond_extra (s : State) (v : BitVec 64) : (s.respond v).extra = s.extra := rfl
@[simp] theorem State.respond_perfCfg (s : State) (v : BitVec 64) : (s.respond v).perfCfg = s.perfCfg := rfl
@[simp] theorem State.respond_perfEff (s : State) (v : BitVec 64) : (s.respond v).perfEff = s.perfEff := rfl
@[simp] theorem State.respond_errFlags (s : State) (v : BitVec 64) : (s.respond v).errFlags = s.errFlags := rfl
@[simp] theorem State.respond_errLast (s : State) (v : BitVec 64) : (s.respond v).errLast = s.errLast := rfl
@[simp] theorem State.respond_phase (s : State) (v : BitVec 64) : (s.respond v).phase = s.phase := rfl
@[simp] theorem State.respond_faultMarks (s : State) (v : BitVec 64) : (s.respond v).faultMarks = s.faultMarks := rfl
@[simp] theorem State.respond_mem (s : State) (v : BitVec 64) : (s.respond v).mem = s.mem := rfl
@[simp] theorem State.respond_hostIn (s : State) (v : BitVec 64) : (s.respond v).hostIn = s.hostIn := rfl
@[simp] theorem State.respond_answers (s : State) (v : BitVec 64) : (s.respond v).answers = s.answers := rfl
@[simp] theorem State.respond_stepChanged (s : State) (v : BitVec 64) : (s.respond v).stepChanged = s.stepChanged := rfl
@[simp] theorem State.respond_out (s : State) (v : BitVec 64) : (s.respond v).out = s.out := rfl
@[simp] theorem State.respond_freeCount (s : State) (v : BitVec 64) : (s.respond v).freeCount = s.freeCount := rfl

/-! ## `State.respOpen` -/

@[simp] theorem State.respOpen_params (s : State) : (s.respOpen).params = s.params := rfl
@[simp] theorem State.respOpen_bootImageOk (s : State) : (s.respOpen).bootImageOk = s.bootImageOk := rfl
@[simp] theorem State.respOpen_now (s : State) : (s.respOpen).now = s.now := rfl
@[simp] theorem State.respOpen_queue (s : State) : (s.respOpen).queue = s.queue := rfl
@[simp] theorem State.respOpen_running (s : State) : (s.respOpen).running = s.running := rfl
@[simp] theorem State.respOpen_fourCore (s : State) : (s.respOpen).fourCore = s.fourCore := rfl
@[simp] theorem State.respOpen_cores (s : State) : (s.respOpen).cores = s.cores := rfl
@[simp] theorem State.respOpen_mgmtPending (s : State) : (s.respOpen).mgmtPending = s.mgmtPending := rfl
@[simp] theorem State.respOpen_mgmtEnable (s : State) : (s.respOpen).mgmtEnable = s.mgmtEnable := rfl
@[simp] theorem State.respOpen_distEnable (s : State) : (s.respOpen).distEnable = s.distEnable := rfl
@[simp] theorem State.respOpen_sym (s : State) : (s.respOpen).sym = s.sym := rfl
@[simp] theorem State.respOpen_route (s : State) : (s.respOpen).route = s.route := rfl
@[simp] theorem State.respOpen_guard (s : State) : (s.respOpen).guard = s.guard := rfl
@[simp] theorem State.respOpen_extra (s : State) : (s.respOpen).extra = s.extra := rfl
@[simp] theorem State.respOpen_perfCfg (s : State) : (s.respOpen).perfCfg = s.perfCfg := rfl
@[simp] theorem State.respOpen_perfEff (s : State) : (s.respOpen).perfEff = s.perfEff := rfl
@[simp] theorem State.respOpen_errFlags (s : State) : (s.respOpen).errFlags = s.errFlags := rfl
@[simp] theorem State.respOpen_errLast (s : State) : (s.respOpen).errLast = s.errLast := rfl
@[simp] theorem State.respOpen_phase (s : State) : (s.respOpen).phase = s.phase := rfl
@[simp] theorem State.respOpen_faultMarks (s : State) : (s.respOpen).faultMarks = s.faultMarks := rfl
@[simp] theorem State.respOpen_mem (s : State) : (s.respOpen).mem = s.mem := rfl
@[simp] theorem State.respOpen_hostIn (s : State) : (s.respOpen).hostIn = s.hostIn := rfl
@[simp] theorem State.respOpen_answers (s : State) : (s.respOpen).answers = s.answers := rfl
@[simp] theorem State.respOpen_stepChanged (s : State) : (s.respOpen).stepChanged = s.stepChanged := rfl
@[simp] theorem State.respOpen_out (s : State) : (s.respOpen).out = s.out := rfl

/-! ## `State.reject` -/

@[simp] theorem State.reject_params (s : State) (e : Err) (w : OpWord) : (s.reject e w).params = s.params := rfl
@[simp] theorem State.reject_bootImageOk (s : State) (e : Err) (w : OpWord) : (s.reject e w).bootImageOk = s.bootImageOk := rfl
@[simp] theorem State.reject_now (s : State) (e : Err) (w : OpWord) : (s.reject e w).now = s.now := rfl
@[simp] theorem State.reject_queue (s : State) (e : Err) (w : OpWord) : (s.reject e w).queue = s.queue := rfl
@[simp] theorem State.reject_running (s : State) (e : Err) (w : OpWord) : (s.reject e w).running = s.running := rfl
@[simp] theorem State.reject_fourCore (s : State) (e : Err) (w : OpWord) : (s.reject e w).fourCore = s.fourCore := rfl
@[simp] theorem State.reject_cores (s : State) (e : Err) (w : OpWord) : (s.reject e w).cores = s.cores := rfl
@[simp] theorem State.reject_mgmtPending (s : State) (e : Err) (w : OpWord) : (s.reject e w).mgmtPending = s.mgmtPending := rfl
@[simp] theorem State.reject_mgmtEnable (s : State) (e : Err) (w : OpWord) : (s.reject e w).mgmtEnable = s.mgmtEnable := rfl
@[simp] theorem State.reject_distEnable (s : State) (e : Err) (w : OpWord) : (s.reject e w).distEnable = s.distEnable := rfl
@[simp] theorem State.reject_sym (s : State) (e : Err) (w : OpWord) : (s.reject e w).sym = s.sym := rfl
@[simp] theorem State.reject_route (s : State) (e : Err) (w : OpWord) : (s.reject e w).route = s.route := rfl
@[simp] theorem State.reject_guard (s : State) (e : Err) (w : OpWord) : (s.reject e w).guard = s.guard := rfl
@[simp] theorem State.reject_extra (s : State) (e : Err) (w : OpWord) : (s.reject e w).extra = s.extra := rfl
@[simp] theorem State.reject_perfCfg (s : State) (e : Err) (w : OpWord) : (s.reject e w).perfCfg = s.perfCfg := rfl
@[simp] theorem State.reject_perfEff (s : State) (e : Err) (w : OpWord) : (s.reject e w).perfEff = s.perfEff := rfl
@[simp] theorem State.reject_resp (s : State) (e : Err) (w : OpWord) : (s.reject e w).resp = s.resp := rfl
@[simp] theorem State.reject_phase (s : State) (e : Err) (w : OpWord) : (s.reject e w).phase = s.phase := rfl
@[simp] theorem State.reject_faultMarks (s : State) (e : Err) (w : OpWord) : (s.reject e w).faultMarks = s.faultMarks := rfl
@[simp] theorem State.reject_mem (s : State) (e : Err) (w : OpWord) : (s.reject e w).mem = s.mem := rfl
@[simp] theorem State.reject_hostIn (s : State) (e : Err) (w : OpWord) : (s.reject e w).hostIn = s.hostIn := rfl
@[simp] theorem State.reject_answers (s : State) (e : Err) (w : OpWord) : (s.reject e w).answers = s.answers := rfl
@[simp] theorem State.reject_stepChanged (s : State) (e : Err) (w : OpWord) : (s.reject e w).stepChanged = s.stepChanged := rfl
@[simp] theorem State.reject_out (s : State) (e : Err) (w : OpWord) : (s.reject e w).out = s.out := rfl
@[simp] theorem State.reject_freeCount (s : State) (e : Err) (w : OpWord) : (s.reject e w).freeCount = s.freeCount := rfl

/-! ## `State.markFault` -/

@[simp] theorem State.markFault_params (s : State) (e : Err) (w : OpWord) : (s.markFault e w).params = s.params := rfl
@[simp] theorem State.markFault_bootImageOk (s : State) (e : Err) (w : OpWord) : (s.markFault e w).bootImageOk = s.bootImageOk := rfl
@[simp] theorem State.markFault_now (s : State) (e : Err) (w : OpWord) : (s.markFault e w).now = s.now := rfl
@[simp] theorem State.markFault_queue (s : State) (e : Err) (w : OpWord) : (s.markFault e w).queue = s.queue := rfl
@[simp] theorem State.markFault_running (s : State) (e : Err) (w : OpWord) : (s.markFault e w).running = s.running := rfl
@[simp] theorem State.markFault_fourCore (s : State) (e : Err) (w : OpWord) : (s.markFault e w).fourCore = s.fourCore := rfl
@[simp] theorem State.markFault_cores (s : State) (e : Err) (w : OpWord) : (s.markFault e w).cores = s.cores := rfl
@[simp] theorem State.markFault_mgmtPending (s : State) (e : Err) (w : OpWord) : (s.markFault e w).mgmtPending = s.mgmtPending := rfl
@[simp] theorem State.markFault_mgmtEnable (s : State) (e : Err) (w : OpWord) : (s.markFault e w).mgmtEnable = s.mgmtEnable := rfl
@[simp] theorem State.markFault_distEnable (s : State) (e : Err) (w : OpWord) : (s.markFault e w).distEnable = s.distEnable := rfl
@[simp] theorem State.markFault_sym (s : State) (e : Err) (w : OpWord) : (s.markFault e w).sym = s.sym := rfl
@[simp] theorem State.markFault_route (s : State) (e : Err) (w : OpWord) : (s.markFault e w).route = s.route := rfl
@[simp] theorem State.markFault_guard (s : State) (e : Err) (w : OpWord) : (s.markFault e w).guard = s.guard := rfl
@[simp] theorem State.markFault_extra (s : State) (e : Err) (w : OpWord) : (s.markFault e w).extra = s.extra := rfl
@[simp] theorem State.markFault_perfCfg (s : State) (e : Err) (w : OpWord) : (s.markFault e w).perfCfg = s.perfCfg := rfl
@[simp] theorem State.markFault_perfEff (s : State) (e : Err) (w : OpWord) : (s.markFault e w).perfEff = s.perfEff := rfl
@[simp] theorem State.markFault_resp (s : State) (e : Err) (w : OpWord) : (s.markFault e w).resp = s.resp := rfl
@[simp] theorem State.markFault_phase (s : State) (e : Err) (w : OpWord) : (s.markFault e w).phase = s.phase := rfl
@[simp] theorem State.markFault_mem (s : State) (e : Err) (w : OpWord) : (s.markFault e w).mem = s.mem := rfl
@[simp] theorem State.markFault_hostIn (s : State) (e : Err) (w : OpWord) : (s.markFault e w).hostIn = s.hostIn := rfl
@[simp] theorem State.markFault_answers (s : State) (e : Err) (w : OpWord) : (s.markFault e w).answers = s.answers := rfl
@[simp] theorem State.markFault_stepChanged (s : State) (e : Err) (w : OpWord) : (s.markFault e w).stepChanged = s.stepChanged := rfl
@[simp] theorem State.markFault_out (s : State) (e : Err) (w : OpWord) : (s.markFault e w).out = s.out := rfl
@[simp] theorem State.markFault_freeCount (s : State) (e : Err) (w : OpWord) : (s.markFault e w).freeCount = s.freeCount := rfl

/-! ## `State.afterRead` -/

@[simp] theorem State.afterRead_params (s : State) (c : CoreId) (a : Word) (n : Width) : (s.afterRead c a n).params = s.params := rfl
@[simp] theorem State.afterRead_bootImageOk (s : State) (c : CoreId) (a : Word) (n : Width) : (s.afterRead c a n).bootImageOk = s.bootImageOk := rfl
@[simp] theorem State.afterRead_now (s : State) (c : CoreId) (a : Word) (n : Width) : (s.afterRead c a n).now = s.now := rfl
@[simp] theorem State.afterRead_queue (s : State) (c : CoreId) (a : Word) (n : Width) : (s.afterRead c a n).queue = s.queue := rfl
@[simp] theorem State.afterRead_running (s : State) (c : CoreId) (a : Word) (n : Width) : (s.afterRead c a n).running = s.running := rfl
@[simp] theorem State.afterRead_fourCore (s : State) (c : CoreId) (a : Word) (n : Width) : (s.afterRead c a n).fourCore = s.fourCore := rfl
@[simp] theorem State.afterRead_cores (s : State) (c : CoreId) (a : Word) (n : Width) : (s.afterRead c a n).cores = s.cores := rfl
@[simp] theorem State.afterRead_mgmtPending (s : State) (c : CoreId) (a : Word) (n : Width) : (s.afterRead c a n).mgmtPending = s.mgmtPending := rfl
@[simp] theorem State.afterRead_mgmtEnable (s : State) (c : CoreId) (a : Word) (n : Width) : (s.afterRead c a n).mgmtEnable = s.mgmtEnable := rfl
@[simp] theorem State.afterRead_distEnable (s : State) (c : CoreId) (a : Word) (n : Width) : (s.afterRead c a n).distEnable = s.distEnable := rfl
@[simp] theorem State.afterRead_sym (s : State) (c : CoreId) (a : Word) (n : Width) : (s.afterRead c a n).sym = s.sym := rfl
@[simp] theorem State.afterRead_route (s : State) (c : CoreId) (a : Word) (n : Width) : (s.afterRead c a n).route = s.route := rfl
@[simp] theorem State.afterRead_guard (s : State) (c : CoreId) (a : Word) (n : Width) : (s.afterRead c a n).guard = s.guard := rfl
@[simp] theorem State.afterRead_extra (s : State) (c : CoreId) (a : Word) (n : Width) : (s.afterRead c a n).extra = s.extra := rfl
@[simp] theorem State.afterRead_perfCfg (s : State) (c : CoreId) (a : Word) (n : Width) : (s.afterRead c a n).perfCfg = s.perfCfg := rfl
@[simp] theorem State.afterRead_perfEff (s : State) (c : CoreId) (a : Word) (n : Width) : (s.afterRead c a n).perfEff = s.perfEff := rfl
@[simp] theorem State.afterRead_errFlags (s : State) (c : CoreId) (a : Word) (n : Width) : (s.afterRead c a n).errFlags = s.errFlags := rfl
@[simp] theorem State.afterRead_errLast (s : State) (c : CoreId) (a : Word) (n : Width) : (s.afterRead c a n).errLast = s.errLast := rfl
@[simp] theorem State.afterRead_resp (s : State) (c : CoreId) (a : Word) (n : Width) : (s.afterRead c a n).resp = s.resp := rfl
@[simp] theorem State.afterRead_phase (s : State) (c : CoreId) (a : Word) (n : Width) : (s.afterRead c a n).phase = s.phase := rfl
@[simp] theorem State.afterRead_faultMarks (s : State) (c : CoreId) (a : Word) (n : Width) : (s.afterRead c a n).faultMarks = s.faultMarks := rfl
@[simp] theorem State.afterRead_mem (s : State) (c : CoreId) (a : Word) (n : Width) : (s.afterRead c a n).mem = s.mem := rfl
@[simp] theorem State.afterRead_hostIn (s : State) (c : CoreId) (a : Word) (n : Width) : (s.afterRead c a n).hostIn = s.hostIn := rfl
@[simp] theorem State.afterRead_answers (s : State) (c : CoreId) (a : Word) (n : Width) : (s.afterRead c a n).answers = s.answers := rfl
@[simp] theorem State.afterRead_stepChanged (s : State) (c : CoreId) (a : Word) (n : Width) : (s.afterRead c a n).stepChanged = s.stepChanged := rfl

/-! ## `State.schedule` -/

@[simp] theorem State.schedule_params (s : State) (task : TaskId) (delay : Cycle) : (s.schedule task delay).params = s.params := rfl
@[simp] theorem State.schedule_bootImageOk (s : State) (task : TaskId) (delay : Cycle) : (s.schedule task delay).bootImageOk = s.bootImageOk := rfl
@[simp] theorem State.schedule_now (s : State) (task : TaskId) (delay : Cycle) : (s.schedule task delay).now = s.now := rfl
@[simp] theorem State.schedule_running (s : State) (task : TaskId) (delay : Cycle) : (s.schedule task delay).running = s.running := rfl
@[simp] theorem State.schedule_fourCore (s : State) (task : TaskId) (delay : Cycle) : (s.schedule task delay).fourCore = s.fourCore := rfl
@[simp] theorem State.schedule_cores (s : State) (task : TaskId) (delay : Cycle) : (s.schedule task delay).cores = s.cores := rfl
@[simp] theorem State.schedule_mgmtPending (s : State) (task : TaskId) (delay : Cycle) : (s.schedule task delay).mgmtPending = s.mgmtPending := rfl
@[simp] theorem State.schedule_mgmtEnable (s : State) (task : TaskId) (delay : Cycle) : (s.schedule task delay).mgmtEnable = s.mgmtEnable := rfl
@[simp] theorem State.schedule_distEnable (s : State) (task : TaskId) (delay : Cycle) : (s.schedule task delay).distEnable = s.distEnable := rfl
@[simp] theorem State.schedule_sym (s : State) (task : TaskId) (delay : Cycle) : (s.schedule task delay).sym = s.sym := rfl
@[simp] theorem State.schedule_route (s : State) (task : TaskId) (delay : Cycle) : (s.schedule task delay).route = s.route := rfl
@[simp] theorem State.schedule_guard (s : State) (task : TaskId) (delay : Cycle) : (s.schedule task delay).guard = s.guard := rfl
@[simp] theorem State.schedule_extra (s : State) (task : TaskId) (delay : Cycle) : (s.schedule task delay).extra = s.extra := rfl
@[simp] theorem State.schedule_perfCfg (s : State) (task : TaskId) (delay : Cycle) : (s.schedule task delay).perfCfg = s.perfCfg := rfl
@[simp] theorem State.schedule_perfEff (s : State) (task : TaskId) (delay : Cycle) : (s.schedule task delay).perfEff = s.perfEff := rfl
@[simp] theorem State.schedule_errFlags (s : State) (task : TaskId) (delay : Cycle) : (s.schedule task delay).errFlags = s.errFlags := rfl
@[simp] theorem State.schedule_errLast (s : State) (task : TaskId) (delay : Cycle) : (s.schedule task delay).errLast = s.errLast := rfl
@[simp] theorem State.schedule_resp (s : State) (task : TaskId) (delay : Cycle) : (s.schedule task delay).resp = s.resp := rfl
@[simp] theorem State.schedule_phase (s : State) (task : TaskId) (delay : Cycle) : (s.schedule task delay).phase = s.phase := rfl
@[simp] theorem State.schedule_faultMarks (s : State) (task : TaskId) (delay : Cycle) : (s.schedule task delay).faultMarks = s.faultMarks := rfl
@[simp] theorem State.schedule_mem (s : State) (task : TaskId) (delay : Cycle) : (s.schedule task delay).mem = s.mem := rfl
@[simp] theorem State.schedule_hostIn (s : State) (task : TaskId) (delay : Cycle) : (s.schedule task delay).hostIn = s.hostIn := rfl
@[simp] theorem State.schedule_answers (s : State) (task : TaskId) (delay : Cycle) : (s.schedule task delay).answers = s.answers := rfl
@[simp] theorem State.schedule_stepChanged (s : State) (task : TaskId) (delay : Cycle) : (s.schedule task delay).stepChanged = s.stepChanged := rfl
@[simp] theorem State.schedule_out (s : State) (task : TaskId) (delay : Cycle) : (s.schedule task delay).out = s.out := rfl
@[simp] theorem State.schedule_freeCount (s : State) (task : TaskId) (delay : Cycle) : (s.schedule task delay).freeCount = s.freeCount := rfl

/-! ## `State.clearGuard` -/

@[simp] theorem State.clearGuard_params (s : State) (t : CoreId) : (s.clearGuard t).params = s.params := rfl
@[simp] theorem State.clearGuard_bootImageOk (s : State) (t : CoreId) : (s.clearGuard t).bootImageOk = s.bootImageOk := rfl
@[simp] theorem State.clearGuard_now (s : State) (t : CoreId) : (s.clearGuard t).now = s.now := rfl
@[simp] theorem State.clearGuard_queue (s : State) (t : CoreId) : (s.clearGuard t).queue = s.queue := rfl
@[simp] theorem State.clearGuard_running (s : State) (t : CoreId) : (s.clearGuard t).running = s.running := rfl
@[simp] theorem State.clearGuard_fourCore (s : State) (t : CoreId) : (s.clearGuard t).fourCore = s.fourCore := rfl
@[simp] theorem State.clearGuard_cores (s : State) (t : CoreId) : (s.clearGuard t).cores = s.cores := rfl
@[simp] theorem State.clearGuard_mgmtPending (s : State) (t : CoreId) : (s.clearGuard t).mgmtPending = s.mgmtPending := rfl
@[simp] theorem State.clearGuard_mgmtEnable (s : State) (t : CoreId) : (s.clearGuard t).mgmtEnable = s.mgmtEnable := rfl
@[simp] theorem State.clearGuard_distEnable (s : State) (t : CoreId) : (s.clearGuard t).distEnable = s.distEnable := rfl
@[simp] theorem State.clearGuard_sym (s : State) (t : CoreId) : (s.clearGuard t).sym = s.sym := rfl
@[simp] theorem State.clearGuard_route (s : State) (t : CoreId) : (s.clearGuard t).route = s.route := rfl
@[simp] theorem State.clearGuard_extra (s : State) (t : CoreId) : (s.clearGuard t).extra = s.extra := rfl
@[simp] theorem State.clearGuard_perfCfg (s : State) (t : CoreId) : (s.clearGuard t).perfCfg = s.perfCfg := rfl
@[simp] theorem State.clearGuard_perfEff (s : State) (t : CoreId) : (s.clearGuard t).perfEff = s.perfEff := rfl
@[simp] theorem State.clearGuard_errFlags (s : State) (t : CoreId) : (s.clearGuard t).errFlags = s.errFlags := rfl
@[simp] theorem State.clearGuard_errLast (s : State) (t : CoreId) : (s.clearGuard t).errLast = s.errLast := rfl
@[simp] theorem State.clearGuard_resp (s : State) (t : CoreId) : (s.clearGuard t).resp = s.resp := rfl
@[simp] theorem State.clearGuard_phase (s : State) (t : CoreId) : (s.clearGuard t).phase = s.phase := rfl
@[simp] theorem State.clearGuard_faultMarks (s : State) (t : CoreId) : (s.clearGuard t).faultMarks = s.faultMarks := rfl
@[simp] theorem State.clearGuard_mem (s : State) (t : CoreId) : (s.clearGuard t).mem = s.mem := rfl
@[simp] theorem State.clearGuard_hostIn (s : State) (t : CoreId) : (s.clearGuard t).hostIn = s.hostIn := rfl
@[simp] theorem State.clearGuard_answers (s : State) (t : CoreId) : (s.clearGuard t).answers = s.answers := rfl
@[simp] theorem State.clearGuard_stepChanged (s : State) (t : CoreId) : (s.clearGuard t).stepChanged = s.stepChanged := rfl
@[simp] theorem State.clearGuard_out (s : State) (t : CoreId) : (s.clearGuard t).out = s.out := rfl
@[simp] theorem State.clearGuard_freeCount (s : State) (t : CoreId) : (s.clearGuard t).freeCount = s.freeCount := rfl

/-! ## `State.memWrite` -/

@[simp] theorem State.memWrite_params (s : State) (c : CoreId) (a : Word) (n : Width) (v : Word) : (s.memWrite c a n v).params = s.params := rfl
@[simp] theorem State.memWrite_bootImageOk (s : State) (c : CoreId) (a : Word) (n : Width) (v : Word) : (s.memWrite c a n v).bootImageOk = s.bootImageOk := rfl
@[simp] theorem State.memWrite_now (s : State) (c : CoreId) (a : Word) (n : Width) (v : Word) : (s.memWrite c a n v).now = s.now := rfl
@[simp] theorem State.memWrite_queue (s : State) (c : CoreId) (a : Word) (n : Width) (v : Word) : (s.memWrite c a n v).queue = s.queue := rfl
@[simp] theorem State.memWrite_running (s : State) (c : CoreId) (a : Word) (n : Width) (v : Word) : (s.memWrite c a n v).running = s.running := rfl
@[simp] theorem State.memWrite_fourCore (s : State) (c : CoreId) (a : Word) (n : Width) (v : Word) : (s.memWrite c a n v).fourCore = s.fourCore := rfl
@[simp] theorem State.memWrite_cores (s : State) (c : CoreId) (a : Word) (n : Width) (v : Word) : (s.memWrite c a n v).cores = s.cores := rfl
@[simp] theorem State.memWrite_mgmtPending (s : State) (c : CoreId) (a : Word) (n : Width) (v : Word) : (s.memWrite c a n v).mgmtPending = s.mgmtPending := rfl
@[simp] theorem State.memWrite_mgmtEnable (s : State) (c : CoreId) (a : Word) (n : Width) (v : Word) : (s.memWrite c a n v).mgmtEnable = s.mgmtEnable := rfl
@[simp] theorem State.memWrite_distEnable (s : State) (c : CoreId) (a : Word) (n : Width) (v : Word) : (s.memWrite c a n v).distEnable = s.distEnable := rfl
@[simp] theorem State.memWrite_sym (s : State) (c : CoreId) (a : Word) (n : Width) (v : Word) : (s.memWrite c a n v).sym = s.sym := rfl
@[simp] theorem State.memWrite_route (s : State) (c : CoreId) (a : Word) (n : Width) (v : Word) : (s.memWrite c a n v).route = s.route := rfl
@[simp] theorem State.memWrite_guard (s : State) (c : CoreId) (a : Word) (n : Width) (v : Word) : (s.memWrite c a n v).guard = s.guard := rfl
@[simp] theorem State.memWrite_extra (s : State) (c : CoreId) (a : Word) (n : Width) (v : Word) : (s.memWrite c a n v).extra = s.extra := rfl
@[simp] theorem State.memWrite_perfCfg (s : State) (c : CoreId) (a : Word) (n : Width) (v : Word) : (s.memWrite c a n v).perfCfg = s.perfCfg := rfl
@[simp] theorem State.memWrite_perfEff (s : State) (c : CoreId) (a : Word) (n : Width) (v : Word) : (s.memWrite c a n v).perfEff = s.perfEff := rfl
@[simp] theorem State.memWrite_errFlags (s : State) (c : CoreId) (a : Word) (n : Width) (v : Word) : (s.memWrite c a n v).errFlags = s.errFlags := rfl
@[simp] theorem State.memWrite_errLast (s : State) (c : CoreId) (a : Word) (n : Width) (v : Word) : (s.memWrite c a n v).errLast = s.errLast := rfl
@[simp] theorem State.memWrite_resp (s : State) (c : CoreId) (a : Word) (n : Width) (v : Word) : (s.memWrite c a n v).resp = s.resp := rfl
@[simp] theorem State.memWrite_phase (s : State) (c : CoreId) (a : Word) (n : Width) (v : Word) : (s.memWrite c a n v).phase = s.phase := rfl
@[simp] theorem State.memWrite_faultMarks (s : State) (c : CoreId) (a : Word) (n : Width) (v : Word) : (s.memWrite c a n v).faultMarks = s.faultMarks := rfl
@[simp] theorem State.memWrite_hostIn (s : State) (c : CoreId) (a : Word) (n : Width) (v : Word) : (s.memWrite c a n v).hostIn = s.hostIn := rfl
@[simp] theorem State.memWrite_answers (s : State) (c : CoreId) (a : Word) (n : Width) (v : Word) : (s.memWrite c a n v).answers = s.answers := rfl
@[simp] theorem State.memWrite_stepChanged (s : State) (c : CoreId) (a : Word) (n : Width) (v : Word) : (s.memWrite c a n v).stepChanged = s.stepChanged := rfl
@[simp] theorem State.memWrite_freeCount (s : State) (c : CoreId) (a : Word) (n : Width) (v : Word) : (s.memWrite c a n v).freeCount = s.freeCount := rfl

/-! ## `State.externalWrite` -/

@[simp] theorem State.externalWrite_params (s : State) (a : Word) (n : Width) (v : Word) : (s.externalWrite a n v).params = s.params := rfl
@[simp] theorem State.externalWrite_bootImageOk (s : State) (a : Word) (n : Width) (v : Word) : (s.externalWrite a n v).bootImageOk = s.bootImageOk := rfl
@[simp] theorem State.externalWrite_now (s : State) (a : Word) (n : Width) (v : Word) : (s.externalWrite a n v).now = s.now := rfl
@[simp] theorem State.externalWrite_queue (s : State) (a : Word) (n : Width) (v : Word) : (s.externalWrite a n v).queue = s.queue := rfl
@[simp] theorem State.externalWrite_running (s : State) (a : Word) (n : Width) (v : Word) : (s.externalWrite a n v).running = s.running := rfl
@[simp] theorem State.externalWrite_fourCore (s : State) (a : Word) (n : Width) (v : Word) : (s.externalWrite a n v).fourCore = s.fourCore := rfl
@[simp] theorem State.externalWrite_cores (s : State) (a : Word) (n : Width) (v : Word) : (s.externalWrite a n v).cores = s.cores := rfl
@[simp] theorem State.externalWrite_mgmtPending (s : State) (a : Word) (n : Width) (v : Word) : (s.externalWrite a n v).mgmtPending = s.mgmtPending := rfl
@[simp] theorem State.externalWrite_mgmtEnable (s : State) (a : Word) (n : Width) (v : Word) : (s.externalWrite a n v).mgmtEnable = s.mgmtEnable := rfl
@[simp] theorem State.externalWrite_distEnable (s : State) (a : Word) (n : Width) (v : Word) : (s.externalWrite a n v).distEnable = s.distEnable := rfl
@[simp] theorem State.externalWrite_sym (s : State) (a : Word) (n : Width) (v : Word) : (s.externalWrite a n v).sym = s.sym := rfl
@[simp] theorem State.externalWrite_route (s : State) (a : Word) (n : Width) (v : Word) : (s.externalWrite a n v).route = s.route := rfl
@[simp] theorem State.externalWrite_guard (s : State) (a : Word) (n : Width) (v : Word) : (s.externalWrite a n v).guard = s.guard := rfl
@[simp] theorem State.externalWrite_extra (s : State) (a : Word) (n : Width) (v : Word) : (s.externalWrite a n v).extra = s.extra := rfl
@[simp] theorem State.externalWrite_perfCfg (s : State) (a : Word) (n : Width) (v : Word) : (s.externalWrite a n v).perfCfg = s.perfCfg := rfl
@[simp] theorem State.externalWrite_perfEff (s : State) (a : Word) (n : Width) (v : Word) : (s.externalWrite a n v).perfEff = s.perfEff := rfl
@[simp] theorem State.externalWrite_errFlags (s : State) (a : Word) (n : Width) (v : Word) : (s.externalWrite a n v).errFlags = s.errFlags := rfl
@[simp] theorem State.externalWrite_errLast (s : State) (a : Word) (n : Width) (v : Word) : (s.externalWrite a n v).errLast = s.errLast := rfl
@[simp] theorem State.externalWrite_resp (s : State) (a : Word) (n : Width) (v : Word) : (s.externalWrite a n v).resp = s.resp := rfl
@[simp] theorem State.externalWrite_phase (s : State) (a : Word) (n : Width) (v : Word) : (s.externalWrite a n v).phase = s.phase := rfl
@[simp] theorem State.externalWrite_faultMarks (s : State) (a : Word) (n : Width) (v : Word) : (s.externalWrite a n v).faultMarks = s.faultMarks := rfl
@[simp] theorem State.externalWrite_hostIn (s : State) (a : Word) (n : Width) (v : Word) : (s.externalWrite a n v).hostIn = s.hostIn := rfl
@[simp] theorem State.externalWrite_answers (s : State) (a : Word) (n : Width) (v : Word) : (s.externalWrite a n v).answers = s.answers := rfl
@[simp] theorem State.externalWrite_stepChanged (s : State) (a : Word) (n : Width) (v : Word) : (s.externalWrite a n v).stepChanged = s.stepChanged := rfl
@[simp] theorem State.externalWrite_freeCount (s : State) (a : Word) (n : Width) (v : Word) : (s.externalWrite a n v).freeCount = s.freeCount := rfl

/-! ## `State.noted` -/

@[simp] theorem State.noted_params (s : State) (a : Option (BitVec 64)) (b : Bool) : (s.noted a b).params = s.params := rfl
@[simp] theorem State.noted_bootImageOk (s : State) (a : Option (BitVec 64)) (b : Bool) : (s.noted a b).bootImageOk = s.bootImageOk := rfl
@[simp] theorem State.noted_now (s : State) (a : Option (BitVec 64)) (b : Bool) : (s.noted a b).now = s.now := rfl
@[simp] theorem State.noted_queue (s : State) (a : Option (BitVec 64)) (b : Bool) : (s.noted a b).queue = s.queue := rfl
@[simp] theorem State.noted_running (s : State) (a : Option (BitVec 64)) (b : Bool) : (s.noted a b).running = s.running := rfl
@[simp] theorem State.noted_fourCore (s : State) (a : Option (BitVec 64)) (b : Bool) : (s.noted a b).fourCore = s.fourCore := rfl
@[simp] theorem State.noted_cores (s : State) (a : Option (BitVec 64)) (b : Bool) : (s.noted a b).cores = s.cores := rfl
@[simp] theorem State.noted_mgmtPending (s : State) (a : Option (BitVec 64)) (b : Bool) : (s.noted a b).mgmtPending = s.mgmtPending := rfl
@[simp] theorem State.noted_mgmtEnable (s : State) (a : Option (BitVec 64)) (b : Bool) : (s.noted a b).mgmtEnable = s.mgmtEnable := rfl
@[simp] theorem State.noted_distEnable (s : State) (a : Option (BitVec 64)) (b : Bool) : (s.noted a b).distEnable = s.distEnable := rfl
@[simp] theorem State.noted_sym (s : State) (a : Option (BitVec 64)) (b : Bool) : (s.noted a b).sym = s.sym := rfl
@[simp] theorem State.noted_route (s : State) (a : Option (BitVec 64)) (b : Bool) : (s.noted a b).route = s.route := rfl
@[simp] theorem State.noted_guard (s : State) (a : Option (BitVec 64)) (b : Bool) : (s.noted a b).guard = s.guard := rfl
@[simp] theorem State.noted_extra (s : State) (a : Option (BitVec 64)) (b : Bool) : (s.noted a b).extra = s.extra := rfl
@[simp] theorem State.noted_perfCfg (s : State) (a : Option (BitVec 64)) (b : Bool) : (s.noted a b).perfCfg = s.perfCfg := rfl
@[simp] theorem State.noted_perfEff (s : State) (a : Option (BitVec 64)) (b : Bool) : (s.noted a b).perfEff = s.perfEff := rfl
@[simp] theorem State.noted_errFlags (s : State) (a : Option (BitVec 64)) (b : Bool) : (s.noted a b).errFlags = s.errFlags := rfl
@[simp] theorem State.noted_errLast (s : State) (a : Option (BitVec 64)) (b : Bool) : (s.noted a b).errLast = s.errLast := rfl
@[simp] theorem State.noted_resp (s : State) (a : Option (BitVec 64)) (b : Bool) : (s.noted a b).resp = s.resp := rfl
@[simp] theorem State.noted_phase (s : State) (a : Option (BitVec 64)) (b : Bool) : (s.noted a b).phase = s.phase := rfl
@[simp] theorem State.noted_faultMarks (s : State) (a : Option (BitVec 64)) (b : Bool) : (s.noted a b).faultMarks = s.faultMarks := rfl
@[simp] theorem State.noted_mem (s : State) (a : Option (BitVec 64)) (b : Bool) : (s.noted a b).mem = s.mem := rfl
@[simp] theorem State.noted_hostIn (s : State) (a : Option (BitVec 64)) (b : Bool) : (s.noted a b).hostIn = s.hostIn := rfl
@[simp] theorem State.noted_out (s : State) (a : Option (BitVec 64)) (b : Bool) : (s.noted a b).out = s.out := rfl
@[simp] theorem State.noted_freeCount (s : State) (a : Option (BitVec 64)) (b : Bool) : (s.noted a b).freeCount = s.freeCount := rfl

@[simp] theorem State.noted_answers (s : State) (a : Option (BitVec 64)) (b : Bool) : (s.noted a b).answers = a :: s.answers := rfl
@[simp] theorem State.noted_stepChanged (s : State) (a : Option (BitVec 64)) (b : Bool) :
    (s.noted a b).stepChanged = (s.stepChanged || b) := rfl

/-! ## `State.heard` -/

@[simp] theorem State.heard_params (s : State) (a : Option (BitVec 64)) : (s.heard a).params = s.params := rfl
@[simp] theorem State.heard_bootImageOk (s : State) (a : Option (BitVec 64)) : (s.heard a).bootImageOk = s.bootImageOk := rfl
@[simp] theorem State.heard_now (s : State) (a : Option (BitVec 64)) : (s.heard a).now = s.now := rfl
@[simp] theorem State.heard_queue (s : State) (a : Option (BitVec 64)) : (s.heard a).queue = s.queue := rfl
@[simp] theorem State.heard_running (s : State) (a : Option (BitVec 64)) : (s.heard a).running = s.running := rfl
@[simp] theorem State.heard_fourCore (s : State) (a : Option (BitVec 64)) : (s.heard a).fourCore = s.fourCore := rfl
@[simp] theorem State.heard_cores (s : State) (a : Option (BitVec 64)) : (s.heard a).cores = s.cores := rfl
@[simp] theorem State.heard_mgmtPending (s : State) (a : Option (BitVec 64)) : (s.heard a).mgmtPending = s.mgmtPending := rfl
@[simp] theorem State.heard_mgmtEnable (s : State) (a : Option (BitVec 64)) : (s.heard a).mgmtEnable = s.mgmtEnable := rfl
@[simp] theorem State.heard_distEnable (s : State) (a : Option (BitVec 64)) : (s.heard a).distEnable = s.distEnable := rfl
@[simp] theorem State.heard_sym (s : State) (a : Option (BitVec 64)) : (s.heard a).sym = s.sym := rfl
@[simp] theorem State.heard_route (s : State) (a : Option (BitVec 64)) : (s.heard a).route = s.route := rfl
@[simp] theorem State.heard_guard (s : State) (a : Option (BitVec 64)) : (s.heard a).guard = s.guard := rfl
@[simp] theorem State.heard_extra (s : State) (a : Option (BitVec 64)) : (s.heard a).extra = s.extra := rfl
@[simp] theorem State.heard_perfCfg (s : State) (a : Option (BitVec 64)) : (s.heard a).perfCfg = s.perfCfg := rfl
@[simp] theorem State.heard_perfEff (s : State) (a : Option (BitVec 64)) : (s.heard a).perfEff = s.perfEff := rfl
@[simp] theorem State.heard_errFlags (s : State) (a : Option (BitVec 64)) : (s.heard a).errFlags = s.errFlags := rfl
@[simp] theorem State.heard_errLast (s : State) (a : Option (BitVec 64)) : (s.heard a).errLast = s.errLast := rfl
@[simp] theorem State.heard_resp (s : State) (a : Option (BitVec 64)) : (s.heard a).resp = s.resp := rfl
@[simp] theorem State.heard_phase (s : State) (a : Option (BitVec 64)) : (s.heard a).phase = s.phase := rfl
@[simp] theorem State.heard_faultMarks (s : State) (a : Option (BitVec 64)) : (s.heard a).faultMarks = s.faultMarks := rfl
@[simp] theorem State.heard_mem (s : State) (a : Option (BitVec 64)) : (s.heard a).mem = s.mem := rfl
@[simp] theorem State.heard_hostIn (s : State) (a : Option (BitVec 64)) : (s.heard a).hostIn = s.hostIn := rfl
@[simp] theorem State.heard_out (s : State) (a : Option (BitVec 64)) : (s.heard a).out = s.out := rfl
@[simp] theorem State.heard_freeCount (s : State) (a : Option (BitVec 64)) : (s.heard a).freeCount = s.freeCount := rfl
@[simp] theorem State.heard_stepChanged (s : State) (a : Option (BitVec 64)) : (s.heard a).stepChanged = s.stepChanged := rfl
@[simp] theorem State.heard_answers (s : State) (a : Option (BitVec 64)) : (s.heard a).answers = a :: s.answers := rfl

/-! ## `State.externalRead` -/

@[simp] theorem State.externalRead_params (s : State) (a : Word) (n : Width) : (s.externalRead a n).params = s.params := rfl
@[simp] theorem State.externalRead_bootImageOk (s : State) (a : Word) (n : Width) : (s.externalRead a n).bootImageOk = s.bootImageOk := rfl
@[simp] theorem State.externalRead_now (s : State) (a : Word) (n : Width) : (s.externalRead a n).now = s.now := rfl
@[simp] theorem State.externalRead_queue (s : State) (a : Word) (n : Width) : (s.externalRead a n).queue = s.queue := rfl
@[simp] theorem State.externalRead_running (s : State) (a : Word) (n : Width) : (s.externalRead a n).running = s.running := rfl
@[simp] theorem State.externalRead_fourCore (s : State) (a : Word) (n : Width) : (s.externalRead a n).fourCore = s.fourCore := rfl
@[simp] theorem State.externalRead_cores (s : State) (a : Word) (n : Width) : (s.externalRead a n).cores = s.cores := rfl
@[simp] theorem State.externalRead_mgmtPending (s : State) (a : Word) (n : Width) : (s.externalRead a n).mgmtPending = s.mgmtPending := rfl
@[simp] theorem State.externalRead_mgmtEnable (s : State) (a : Word) (n : Width) : (s.externalRead a n).mgmtEnable = s.mgmtEnable := rfl
@[simp] theorem State.externalRead_distEnable (s : State) (a : Word) (n : Width) : (s.externalRead a n).distEnable = s.distEnable := rfl
@[simp] theorem State.externalRead_sym (s : State) (a : Word) (n : Width) : (s.externalRead a n).sym = s.sym := rfl
@[simp] theorem State.externalRead_route (s : State) (a : Word) (n : Width) : (s.externalRead a n).route = s.route := rfl
@[simp] theorem State.externalRead_guard (s : State) (a : Word) (n : Width) : (s.externalRead a n).guard = s.guard := rfl
@[simp] theorem State.externalRead_extra (s : State) (a : Word) (n : Width) : (s.externalRead a n).extra = s.extra := rfl
@[simp] theorem State.externalRead_perfCfg (s : State) (a : Word) (n : Width) : (s.externalRead a n).perfCfg = s.perfCfg := rfl
@[simp] theorem State.externalRead_perfEff (s : State) (a : Word) (n : Width) : (s.externalRead a n).perfEff = s.perfEff := rfl
@[simp] theorem State.externalRead_errFlags (s : State) (a : Word) (n : Width) : (s.externalRead a n).errFlags = s.errFlags := rfl
@[simp] theorem State.externalRead_errLast (s : State) (a : Word) (n : Width) : (s.externalRead a n).errLast = s.errLast := rfl
@[simp] theorem State.externalRead_resp (s : State) (a : Word) (n : Width) : (s.externalRead a n).resp = s.resp := rfl
@[simp] theorem State.externalRead_phase (s : State) (a : Word) (n : Width) : (s.externalRead a n).phase = s.phase := rfl
@[simp] theorem State.externalRead_faultMarks (s : State) (a : Word) (n : Width) : (s.externalRead a n).faultMarks = s.faultMarks := rfl
@[simp] theorem State.externalRead_mem (s : State) (a : Word) (n : Width) : (s.externalRead a n).mem = s.mem := rfl
@[simp] theorem State.externalRead_hostIn (s : State) (a : Word) (n : Width) : (s.externalRead a n).hostIn = s.hostIn := rfl
@[simp] theorem State.externalRead_answers (s : State) (a : Word) (n : Width) : (s.externalRead a n).answers = s.answers := rfl
@[simp] theorem State.externalRead_stepChanged (s : State) (a : Word) (n : Width) : (s.externalRead a n).stepChanged = s.stepChanged := rfl

/-! ## What an update changes -/

@[simp] theorem State.respond_resp (s : State) (v : BitVec 64) : (s.respond v).resp = v := rfl
@[simp] theorem State.emit_out (s : State) (o : Output) : (s.emit o).out = o :: s.out := rfl
@[simp] theorem State.setCore_cores (s : State) (c : CoreId) (k : CpuContext) : (s.setCore c k).cores = s.cores.set c k := rfl
@[simp] theorem State.setSymIrq_sym (s : State) (c : SymId) (k : SymIrq) : (s.setSymIrq c k).sym = s.sym.set c k := rfl
@[simp] theorem State.setExtra_extra (s : State) (e : Fin 2) (k : ExtraCore) : (s.setExtra e k).extra = s.extra.set e k := rfl
@[simp] theorem State.reject_errFlags (s : State) (e : Err) (w : OpWord) : (s.reject e w).errFlags = withBit s.errFlags e.bit := rfl
@[simp] theorem State.reject_errLast (s : State) (e : Err) (w : OpWord) : (s.reject e w).errLast = w := rfl
@[simp] theorem State.markFault_errFlags (s : State) (e : Err) (w : OpWord) : (s.markFault e w).errFlags = withBit s.errFlags e.bit := rfl
@[simp] theorem State.markFault_errLast (s : State) (e : Err) (w : OpWord) : (s.markFault e w).errLast = w := rfl
@[simp] theorem State.markFault_faultMarks (s : State) (e : Err) (w : OpWord) : (s.markFault e w).faultMarks = withBit s.faultMarks e.bit := rfl
@[simp] theorem State.schedule_queue (s : State) (task : TaskId) (delay : Cycle) :
    (s.schedule task delay).queue = insertEvent ⟨task, s.now + delay⟩ s.queue := rfl
@[simp] theorem State.clearGuard_guard (s : State) (t : CoreId) : (s.clearGuard t).guard = s.guard.set t false := rfl

/-! ## Contexts -/

theorem State.core_eq (s : State) (c : CoreId) : s.core c = s.cores[c] := rfl

/-- The context just written is the one that reads back. -/
@[simp] theorem State.core_setCore_same (s : State) (c : CoreId) (k : CpuContext) : (s.setCore c k).core c = k := by
  simp [State.core, State.setCore]

/-- Writing a context leaves every other context alone. -/
theorem State.core_setCore_ne (s : State) {c d : CoreId} (k : CpuContext) (h : d ≠ c) :
    (s.setCore c k).core d = s.core d := by
  have : c.val ≠ d.val := fun e => h (Fin.ext e.symm)
  simp [State.core, State.setCore, this]

/-- What any context is after one of them has been written. -/
theorem State.core_setCore (s : State) (c d : CoreId) (k : CpuContext) :
    (s.setCore c k).core d = if d = c then k else s.core d := by
  by_cases h : d = c
  · simp [h]
  · simp [h, State.core_setCore_ne s k h]

/-- The last write of a context is the one that counts. -/
@[simp] theorem State.setCore_setCore (s : State) (c : CoreId) (k l : CpuContext) :
    (s.setCore c k).setCore c l = s.setCore c l := by
  simp [State.setCore]

/-- Two states with the same contexts have the same context of every core. -/
theorem State.core_congr {s t : State} (h : s.cores = t.cores) (c : CoreId) : s.core c = t.core c := by
  simp [State.core, h]

/-- The interrupt state just written is the one that reads back. -/
@[simp] theorem State.symIrq_setSymIrq_same (s : State) (c : SymId) (k : SymIrq) : (s.setSymIrq c k).symIrq c = k := by
  simp [State.symIrq, State.setSymIrq]

/-- Writing the interrupt state of a core leaves that of every other core alone. -/
theorem State.symIrq_setSymIrq_ne (s : State) {c d : SymId} (k : SymIrq) (h : d ≠ c) :
    (s.setSymIrq c k).symIrq d = s.symIrq d := by
  have : c.val ≠ d.val := fun e => h (Fin.ext e.symm)
  simp [State.symIrq, State.setSymIrq, this]

end Sys2Proof.Machine
end

