-- ==== Sys2Proof/Laws/Pipeline.lean ====
section
/-! SUPPORT. The memory port, `Flush` and the pipeline advance: what each of them can do, and that they keep a context
as `ContextOk` says. -/

namespace Sys2Proof.Machine

/-! ## Values of a width -/

/-- A 16-bit value below 16 zeros is below 65536. -/
theorem toNat_zero_append_lt (x : BitVec 16) : (0#16 ++ x).toNat < 65536 := by
  have := x.isLt
  rw [BitVec.toNat_append]
  simp only [BitVec.toNat_ofNat, Nat.zero_mod, Nat.zero_shiftLeft, Nat.zero_or]
  omega

/-- A 16-bit fetch is zero-extended (R72), whatever it answers. -/
theorem State.memAnswer_half_lt (s : State) (c : CoreId) (a : Word) : (s.memAnswer c a .half).toNat < 65536 := by
  unfold State.memAnswer
  split
  · exact toNat_zero_append_lt _
  · have h : Memory.load s.mem a .half = 0#16 ++ (Memory.byteAt s.mem (a + 1#32) ++ Memory.byteAt s.mem a) := by
      unfold Memory.load
      apply BitVec.eq_of_getLsbD_eq
      intro i hi
      simp only [BitVec.getLsbD_append]
      by_cases h1 : i < 8
      · simp [h1]; omega
      · by_cases h2 : i - 8 < 8 <;> simp [h1, h2] <;> omega
    rw [h]
    exact toNat_zero_append_lt _

/-- Outside every window a read answers the little-endian value of the plain memory. -/
theorem State.memAnswer_plain {s : State} {c : CoreId} {a : Word} (n : Width) (h : s.inWindow c a = false) :
    s.memAnswer c a n = Memory.load s.mem a n := by simp [State.memAnswer, h]

/-! ## Alignment -/

/-- The width of an encoding is 2 or 4 (R105). -/
theorem fetchWidth_cases (status : Word) :
    (compact status = true ∧ fetchWidth status = .half) ∨ (compact status = false ∧ fetchWidth status = .word) := by
  unfold fetchWidth
  cases compact status <;> simp

theorem and_one_eq_zero_iff (a : Word) : a &&& 1#32 = 0#32 ↔ a.toNat % 2 = 0 := by
  rw [← BitVec.toNat_inj, BitVec.toNat_and]
  have := Nat.and_two_pow_sub_one_eq_mod a.toNat 1
  simp at this ⊢

theorem and_three_eq_zero_iff (a : Word) : a &&& 3#32 = 0#32 ↔ a.toNat % 4 = 0 := by
  rw [← BitVec.toNat_inj, BitVec.toNat_and]
  have := Nat.and_two_pow_sub_one_eq_mod a.toNat 2
  simp at this ⊢
  omega

/-- `a + W` is aligned when `a` is (R75). -/
theorem aligned_add_width {status a : Word} (h : a &&& ((fetchWidth status).bytes - 1#32) = 0#32) :
    (a + (fetchWidth status).bytes) &&& ((fetchWidth status).bytes - 1#32) = 0#32 := by
  rcases fetchWidth_cases status with ⟨-, hw⟩ | ⟨-, hw⟩ <;> rw [hw] at h ⊢
  · have h' := (and_one_eq_zero_iff a).1 (by simpa [Width.bytes] using h)
    have : (a + 2#32) &&& 1#32 = 0#32 := (and_one_eq_zero_iff _).2 (by simp [BitVec.toNat_add]; omega)
    simpa [Width.bytes] using this
  · have h' := (and_three_eq_zero_iff a).1 (by simpa [Width.bytes] using h)
    have : (a + 4#32) &&& 3#32 = 0#32 := (and_three_eq_zero_iff _).2 (by simp [BitVec.toNat_add]; omega)
    simpa [Width.bytes] using this

/-- The address `Flush` refills from is aligned (R149). -/
theorem aligned_flushAddr (k : CpuContext) : k.flushAddr &&& ((fetchWidth k.status).bytes - 1#32) = 0#32 := by
  rw [CpuContext.flushAddr, BitVec.and_assoc]
  simp [BitVec.and_comm]

/-! ## `Flush` and the advance -/

/-- The context `Flush` leaves (R149). -/
def State.flushed (s : State) (c : CoreId) : CpuContext :=
  { s.core c with
    pipe0 := s.memAnswer c (s.core c).flushAddr (fetchWidth (s.core c).status)
    pipe1 := (s.afterRead c (s.core c).flushAddr (fetchWidth (s.core c).status)).memAnswer c
      ((s.core c).flushAddr + (fetchWidth (s.core c).status).bytes) (fetchWidth (s.core c).status)
    pc := (s.core c).flushAddr + (fetchWidth (s.core c).status).bytes }

/-- All that `Flush` does: it replaces the context of its core, reads twice, and uses up free values in windows. -/
theorem State.flush_eq (s : State) (c : CoreId) :
    ∃ o n, s.flush c = { s.setCore c (s.flushed c) with out := o, freeCount := n } := ⟨_, _, rfl⟩

@[simp] theorem State.flushed_status (s : State) (c : CoreId) : (s.flushed c).status = (s.core c).status := rfl
@[simp] theorem State.flushed_readyAt (s : State) (c : CoreId) : (s.flushed c).readyAt = (s.core c).readyAt := rfl
@[simp] theorem State.flushed_halted (s : State) (c : CoreId) : (s.flushed c).halted = (s.core c).halted := rfl
@[simp] theorem State.flushed_excBase (s : State) (c : CoreId) : (s.flushed c).excBase = (s.core c).excBase := rfl

/-- `Flush` makes a context with a legal mode a good one. -/
theorem State.flushed_ok {s : State} {c : CoreId} (h : modeOf (s.core c).status ∈ modes) : ContextOk (s.flushed c) where
  mode := h
  aligned := aligned_add_width (aligned_flushAddr _)
  narrow := by
    intro hc
    have hw : fetchWidth (s.core c).status = .half := by
      simp only [fetchWidth]; simp only [State.flushed_status] at hc; simp [hc]
    simp only [State.flushed, hw]
    exact ⟨State.memAnswer_half_lt _ _ _, State.memAnswer_half_lt _ _ _⟩

/-- The context the pipeline advance leaves (R145, R147). -/
def State.advanced (s : State) (c : CoreId) : CpuContext :=
  { s.core c with
    pipe0 := (s.core c).pipe1
    pc := (s.core c).pc + (fetchWidth (s.core c).status).bytes
    pipe1 := s.memAnswer c ((s.core c).pc + (fetchWidth (s.core c).status).bytes) (fetchWidth (s.core c).status) }

/-- All that the pipeline advance does. -/
theorem State.pipeAdvance_eq (s : State) (c : CoreId) :
    ∃ o n, s.pipeAdvance c = { s.setCore c (s.advanced c) with out := o, freeCount := n } := ⟨_, _, rfl⟩

/-- The pipeline advance keeps a context good. -/
theorem State.advanced_ok {s : State} {c : CoreId} (h : ContextOk (s.core c)) : ContextOk (s.advanced c) where
  mode := h.mode
  aligned := aligned_add_width h.aligned
  narrow := by
    intro hc
    have hw : fetchWidth (s.core c).status = .half := by
      have : compact (s.core c).status = true := hc
      simp [fetchWidth, this]
    refine ⟨(h.narrow hc).2, ?_⟩
    simp only [State.advanced, hw]
    exact State.memAnswer_half_lt _ _ _

end Sys2Proof.Machine
end

