-- ==== Sys2Proof/Laws/Queue.lean ====
section
/-! SUPPORT. Insertion into the event queue: what it holds afterwards and that it stays sorted. -/

namespace Sys2Proof.Machine

/-- The events after an insertion are the inserted one and those that were there. -/
theorem mem_insertEvent {e x : Event} {q : List Event} : x ∈ insertEvent e q ↔ x = e ∨ x ∈ q := by
  induction q with
  | nil => simp [insertEvent]
  | cons y q ih =>
    simp only [insertEvent]
    split
    · simp
    · simp [ih]; tauto

/-- Insertion keeps the queue sorted (I-1 of R50). -/
theorem sorted_insertEvent {e : Event} {q : List Event} (h : q.Pairwise (fun a b => a.due ≤ b.due)) :
    (insertEvent e q).Pairwise (fun a b => a.due ≤ b.due) := by
  induction q with
  | nil => simp [insertEvent]
  | cons y q ih =>
    rw [List.pairwise_cons] at h
    simp only [insertEvent]
    split
    · rename_i hlt
      refine List.pairwise_cons.2 ⟨?_, List.pairwise_cons.2 h⟩
      intro x hx
      rcases List.mem_cons.1 hx with rfl | hx
      · exact BitVec.le_of_lt hlt
      · exact BitVec.le_trans (BitVec.le_of_lt hlt) (h.1 x hx)
    · rename_i hge
      refine List.pairwise_cons.2 ⟨?_, ih h.2⟩
      intro x hx
      rcases mem_insertEvent.1 hx with rfl | hx
      · exact BitVec.not_lt.1 hge
      · exact h.1 x hx

/-- Insertion adds one pending event of its task and none of another. -/
theorem pending_insertEvent (task : TaskId) (e : Event) (q : List Event) :
    pending task (insertEvent e q) = pending task q + if e.task = task then 1 else 0 := by
  unfold pending
  induction q with
  | nil => simp [insertEvent, List.countP_cons]
  | cons y q ih =>
    simp only [insertEvent]
    split
    · simp [List.countP_cons]
    · rw [List.countP_cons, List.countP_cons, ih]; omega

/-- Removing the head removes one pending event of its task. -/
theorem pending_cons (task : TaskId) (e : Event) (q : List Event) :
    pending task (e :: q) = pending task q + if e.task = task then 1 else 0 := by
  simp [pending, List.countP_cons]

/-- A queue with a pending event is not empty. -/
theorem queue_ne_nil {task : TaskId} {q : List Event} (h : pending task q = 1) : q ≠ [] := by
  rintro rfl; simp [pending] at h

end Sys2Proof.Machine
end

