-- ==== Sys2Proof/Laws/Moves.lean ====
section
/-! SUPPORT. What an operation can do, said once: every command and every CPU word that answers a next state gets there
by a sequence of the few moves of `Moves`, so that an invariant of the machine is proved by a case for each move. -/

namespace Sys2Proof.Machine

/-- `t` differs from `s` at most in the interrupt controller's registers, the flags of the extra cores, the
performance registers, the response, the outputs and the host's tape and the agents' notes. -/
structure SameCore (s t : State) : Prop where
  /-- The parameters are the same. -/
  params : t.params = s.params
  /-- `now` is the same. -/
  now : t.now = s.now
  /-- The queue is the same. -/
  queue : t.queue = s.queue
  /-- `running` is the same. -/
  running : t.running = s.running
  /-- `four_core` is the same. -/
  fourCore : t.fourCore = s.fourCore
  /-- Every context is the same. -/
  cores : t.cores = s.cores
  /-- The guards are the same. -/
  guard : t.guard = s.guard
  /-- The error flags are the same. -/
  errFlags : t.errFlags = s.errFlags
  /-- The position in the loop is the same. -/
  phase : t.phase = s.phase
  /-- The external memory is the same. -/
  mem : t.mem = s.mem

/-- The moves of which commands and CPU words are made. -/
inductive Moves : State → State → Prop where
  /-- Nothing happens. -/
  | refl (s : State) : Moves s s
  /-- Something outside the clock, the queue, the contexts and the error log changes. -/
  | quiet {s t u : State} (h : Moves s t) (k : SameCore t u) : Moves s u
  /-- A context is replaced; a good one stays good, and `ready_at` stays. -/
  | context {s t : State} (h : Moves s t) (c : CoreId) (k : CpuContext)
      (ok : ContextOk (t.core c) → ContextOk k) (ready : k.readyAt = (t.core c).readyAt) : Moves s (t.setCore c k)
  /-- A delivery is requested (R202). -/
  | kick {s t : State} (h : Moves s t) (c : CoreId) : Moves s (t.kick c)
  /-- An event of a task that is legal on the port is inserted, without overflow (R121, R123, R124). -/
  | schedule {s t : State} (h : Moves s t) (task : TaskId) (delay : Cycle)
      (legal : legalTask t.params.nTasks task = true) (fits : t.now.toNat + delay.toNat < 18446744073709551616) :
      Moves s (t.schedule task delay)
  /-- An error is logged. -/
  | log {s t : State} (h : Moves s t) (e : Err) (w : OpWord) : Moves s (t.reject e w)

theorem SameCore.refl (s : State) : SameCore s s := ⟨rfl, rfl, rfl, rfl, rfl, rfl, rfl, rfl, rfl, rfl⟩

theorem Moves.trans {s t u : State} (h : Moves s t) (k : Moves t u) : Moves s u := by
  induction k with
  | refl => exact h
  | quiet _ q ih => exact ih.quiet q
  | context _ c k ok ready ih => exact ih.context c k ok ready
  | kick _ c ih => exact ih.kick c
  | schedule _ task delay legal fits ih => exact ih.schedule task delay legal fits
  | log _ e w ih => exact ih.log e w

/-- One quiet change. -/
theorem Moves.of_same {s t : State} (h : SameCore s t) : Moves s t := (Moves.refl s).quiet h

/-- The response of an operation that returns nothing. -/
theorem Moves.respOpen {s t : State} (h : Moves s t) : Moves s t.respOpen :=
  h.quiet ⟨rfl, rfl, rfl, rfl, rfl, rfl, rfl, rfl, rfl, rfl⟩

/-- The response of an operation that returns a value. -/
theorem Moves.respond {s t : State} (h : Moves s t) (v : BitVec 64) : Moves s (t.respond v) :=
  h.quiet ⟨rfl, rfl, rfl, rfl, rfl, rfl, rfl, rfl, rfl, rfl⟩

/-- An error whose behaviour is marked as a fault. -/
theorem Moves.markFault {s t : State} (h : Moves s t) (e : Err) (w : OpWord) : Moves s (t.markFault e w) :=
  (h.log e w).quiet ⟨rfl, rfl, rfl, rfl, rfl, rfl, rfl, rfl, rfl, rfl⟩

/-! ## Contexts -/

/-- A mode has a bank exactly when it is one of the table of R31. -/
theorem validMode_iff (m : BitVec 5) : validMode m = true ↔ m ∈ modes := by
  revert m; decide

/-- A change of a context that leaves status, `pc`, the pipeline and `ready_at` alone. -/
theorem Moves.register {s t : State} (h : Moves s t) (c : CoreId) (k : CpuContext)
    (hs : k.status = (t.core c).status) (hp : k.pc = (t.core c).pc) (h0 : k.pipe0 = (t.core c).pipe0)
    (h1 : k.pipe1 = (t.core c).pipe1) (hr : k.readyAt = (t.core c).readyAt) : Moves s (t.setCore c k) :=
  h.context c k (fun ok => ⟨hs ▸ ok.mode, by rw [hs, hp]; exact ok.aligned, by rw [hs, h0, h1]; exact ok.narrow⟩) hr

/-- A redirection: the context gets a status with a legal mode and any `pc`, and the pipeline is refilled. -/
theorem Moves.redirect {s t : State} (h : Moves s t) (c : CoreId) (k : CpuContext)
    (hm : ContextOk (t.core c) → modeOf k.status ∈ modes) (hr : k.readyAt = (t.core c).readyAt) :
    Moves s ((t.setCore c k).flush c) := by
  obtain ⟨o, n, he⟩ := (t.setCore c k).flush_eq c
  rw [he]
  have hk : (t.setCore c k).core c = k := State.core_setCore_same t c k
  refine Moves.quiet (t := t.setCore c ((t.setCore c k).flushed c)) (h.context c _ ?_ ?_) ?_
  · intro ok
    exact State.flushed_ok (by rw [hk]; exact hm ok)
  · simp [hr]
  · refine ⟨rfl, rfl, rfl, rfl, rfl, ?_, rfl, rfl, rfl, rfl⟩
    simp

/-- Writing a slot other than `pc` leaves status, `pc`, the pipeline and `ready_at` alone. -/
theorem CpuContext.writeSlot_frame (k : CpuContext) (p : Slot) (v : Word) (hp : p ≠ .pc) :
    (k.writeSlot p v).status = k.status ∧ (k.writeSlot p v).pc = k.pc ∧ (k.writeSlot p v).pipe0 = k.pipe0
      ∧ (k.writeSlot p v).pipe1 = k.pipe1 ∧ (k.writeSlot p v).readyAt = k.readyAt
      ∧ (k.writeSlot p v).halted = k.halted ∧ (k.writeSlot p v).excBase = k.excBase := by
  cases p <;> simp_all [CpuContext.writeSlot]

/-- Writing a saved-status register changes nothing but that register. -/
theorem CpuContext.withSaved_frame (k : CpuContext) (b : PrivBank) (v : Word) :
    (k.withSaved b v).status = k.status ∧ (k.withSaved b v).pc = k.pc ∧ (k.withSaved b v).pipe0 = k.pipe0
      ∧ (k.withSaved b v).pipe1 = k.pipe1 ∧ (k.withSaved b v).readyAt = k.readyAt
      ∧ (k.withSaved b v).halted = k.halted ∧ (k.withSaved b v).excBase = k.excBase := by
  cases b <;> simp [CpuContext.withSaved]

/-- Only the logical register 15 names the slot of `pc` (R31). -/
theorem phys_ne_pc (b : Bank) (index : BitVec 4) (h : index ≠ 15#4) : phys b index ≠ .pc := by
  revert index; revert b
  have key : ∀ index : BitVec 4, index ≠ 15#4 → ∀ b : PrivBank, phys .normal index ≠ .pc ∧ phys (.priv b) index ≠ .pc := by
    intro index h b
    cases b <;> revert index <;> decide
  intro b index h
  cases b with
  | normal => exact (key index h .fiq).1
  | priv b => exact (key index h b).2

/-- The slot of index 13 or 14 is never `pc`. -/
theorem highSlot_ne_pc (b : Bank) (i : Fin 2) : highSlot b i ≠ .pc := by
  cases b with
  | normal => simp [highSlot]
  | priv b => cases b <;> simp [highSlot]

/-! ## Interrupt lines -/

theorem Moves.irqCheck {s t : State} (h : Moves s t) (c : CoreId) : Moves s (t.irqCheck c) := by
  unfold State.irqCheck
  split
  · exact h.kick c
  · exact h

theorem Moves.setSymIrq {s t : State} (h : Moves s t) (c : SymId) (k : SymIrq) : Moves s (t.setSymIrq c k) :=
  h.quiet ⟨rfl, rfl, rfl, rfl, rfl, rfl, rfl, rfl, rfl, rfl⟩

theorem Moves.setExtra {s t : State} (h : Moves s t) (e : Fin 2) (k : ExtraCore) : Moves s (t.setExtra e k) :=
  h.quiet ⟨rfl, rfl, rfl, rfl, rfl, rfl, rfl, rfl, rfl, rfl⟩

theorem Moves.sendSym {s t : State} (h : Moves s t) (c : SymId) (type : IrqType) : Moves s (t.sendSym c type) := by
  unfold State.sendSym
  split
  · exact (h.setSymIrq _ _).kick _
  · exact h

theorem Moves.broadcast {s t : State} (h : Moves s t) (type : IrqType) : Moves s (t.broadcast type) :=
  (((h.sendSym 0 type).sendSym 1 type).sendSym 2 type).sendSym 3 type

theorem Moves.sgiTo {s t : State} (h : Moves s t) (i : SymId) (type : Fin 16) (targets : BitVec 4) (c : SymId) :
    Moves s (t.sgiTo i type targets c) := by
  unfold State.sgiTo
  split
  · exact (h.setSymIrq _ _).kick _
  · exact h

theorem Moves.sgiSend {s t : State} (h : Moves s t) (i : SymId) (type : Fin 16) (targets : BitVec 4) :
    Moves s (t.sgiSend i type targets) :=
  (((h.sgiTo i type targets 0).sgiTo i type targets 1).sgiTo i type targets 2).sgiTo i type targets 3

/-! ## Halting -/

theorem Moves.clusterIdle {s t : State} (h : Moves s t) : Moves s t.clusterIdle := by
  unfold State.clusterIdle
  split
  · refine Moves.broadcast (h.quiet ?_) _
    exact ⟨rfl, rfl, rfl, rfl, rfl, rfl, rfl, rfl, rfl, rfl⟩
  · exact h

theorem Moves.clusterCheck {s t : State} (h : Moves s t) (k : CoreId) : Moves s (t.clusterCheck k) := by
  unfold State.clusterCheck
  split
  · exact h.clusterIdle
  · exact h

/-- `T_CORE_CONFIG` is legal on the port and with delay 0 never overflows. -/
theorem Moves.coreConfig {s t : State} (h : Moves s t) : Moves s (t.schedule 2#8 0#64) :=
  h.schedule _ _ (by simp [legalTask]) (by have := t.now.isLt; simpa using this)

theorem Moves.shutdownSeq {s t : State} (h : Moves s t) (e : Fin 2) : Moves s (t.shutdownSeq e) := by
  unfold State.shutdownSeq
  split
  · simp only
    split
    · exact (h.setExtra _ _).coreConfig
    · exact h.setExtra _ _
  · exact h

theorem Moves.shutdownCheck {s t : State} (h : Moves s t) (k : CoreId) : Moves s (t.shutdownCheck k) := by
  unfold State.shutdownCheck
  split
  · exact h.shutdownSeq _
  · exact h.shutdownSeq _
  · exact h

theorem Moves.halt {s t : State} (h : Moves s t) (k : CoreId) (r : Fin 8) : Moves s (t.halt k r) := by
  refine ((h.register k _ ?_ ?_ ?_ ?_ ?_).clusterCheck k).shutdownCheck k <;> rfl

/-! ## Exceptions and status -/

/-- The context of entry has the mode of the exception (R252). -/
theorem CpuContext.enter_status (k : CpuContext) (x : Exc) : (k.enter x).status = entryStatus k.status x := by
  cases x <;> rfl

theorem CpuContext.enter_readyAt (k : CpuContext) (x : Exc) : (k.enter x).readyAt = k.readyAt := by
  cases x <;> rfl

/-- The mode after entry is `ExcMode(x)`. -/
theorem modeOf_entryStatus (old : Word) (x : Exc) : modeOf (entryStatus old x) = excMode x := by
  unfold modeOf entryStatus
  apply BitVec.eq_of_getLsbD_eq
  intro i hi
  simp only [BitVec.getLsbD_extractLsb', BitVec.getLsbD_append]
  simp [hi]

theorem excMode_mem (x : Exc) : excMode x ∈ modes := by cases x <;> decide

theorem Moves.excEntry {s t : State} (h : Moves s t) (c : CoreId) (x : Exc) : Moves s (t.excEntry c x) :=
  h.redirect c _ (fun _ => by rw [CpuContext.enter_status, modeOf_entryStatus]; exact excMode_mem x)
    (CpuContext.enter_readyAt _ _)

theorem Moves.branch {s t : State} (h : Moves s t) (c : CoreId) (target : Word) : Moves s (t.branch c target) :=
  h.redirect c _ (fun ok => ok.mode) rfl

theorem Moves.irqCheckIfUnmasked {s t : State} (h : Moves s t) (c : CoreId) (old new : Word) :
    Moves s (t.irqCheckIfUnmasked c old new) := by
  unfold State.irqCheckIfUnmasked
  split
  · exact h.irqCheck c
  · exact h

theorem Moves.excReturn {s t : State} (h : Moves s t) (c : CoreId) {v : Word} (target : Word)
    (hv : validMode (modeOf v) = true) : Moves s (t.excReturn c v target) := by
  refine (h.redirect c _ ?_ ?_).irqCheckIfUnmasked _ _ _
  · exact fun _ => (validMode_iff _).1 hv
  · rfl

theorem Moves.statusWrite {s t : State} (h : Moves s t) (c : CoreId) {v : Word}
    (hv : validMode (modeOf v) = true) : Moves s (t.statusWrite c v) := by
  unfold State.statusWrite
  simp only
  apply Moves.irqCheckIfUnmasked
  split
  · exact h.redirect c _ (fun _ => (validMode_iff _).1 hv) rfl
  · rename_i hne
    have hc : compact v = compact (t.core c).status := by
      by_contra hh; exact hne (Or.inr hh)
    refine h.context c _ (fun ok => ⟨(validMode_iff _).1 hv, ?_, ?_⟩) rfl
    · have hw : fetchWidth v = fetchWidth (t.core c).status := by simp [fetchWidth, hc]
      simpa [hw] using ok.aligned
    · intro hn
      exact ok.narrow (by rw [← hc]; exact hn)

/-! ## Every operation -/

/-- A rejected operation. -/
theorem moves_of_rejected {s t : State} {e : Err} {i : Instr} (h : s.rejected e i = .next t) : Moves s t := by
  cases h; exact (Moves.refl s).log _ _

/-- An operation that is a fault. -/
theorem moves_of_faulted {s t : State} {e : Err} {i : Instr} (h : s.faulted e i = .next t) : Moves s t := by
  cases h; exact (Moves.refl s).markFault _ _

theorem moves_of_withCore {s t : State} {a : BitVec 8} {i : Instr} {f : CoreId → Result}
    (hf : ∀ c, coreOf a = some c → f c = .next t → Moves s t) (h : s.withCore a i f = .next t) : Moves s t := by
  unfold State.withCore at h
  split at h
  · rename_i c hc; exact hf c hc h
  · exact moves_of_rejected h

theorem moves_of_withBank {s t : State} {m : BitVec 5} {i : Instr} {f : Bank → Result}
    (hf : ∀ b, f b = .next t → Moves s t) (h : s.withBank m i f = .next t) : Moves s t := by
  unfold State.withBank at h
  split at h
  · exact hf _ h
  · exact moves_of_faulted h

theorem moves_of_withSym {s t : State} {a : BitVec 8} {i : Instr} {f : SymId → Result}
    (hf : ∀ c, f c = .next t → Moves s t) (h : s.withSym a i f = .next t) : Moves s t := by
  unfold State.withSym at h
  split at h
  · exact hf _ h
  · exact moves_of_rejected h

theorem moves_of_withType {s t : State} {y : BitVec 16} {i : Instr} {f : IrqType → Result}
    (hf : ∀ c, f c = .next t → Moves s t) (h : s.withType y i f = .next t) : Moves s t := by
  unfold State.withType at h
  split at h
  · exact hf _ h
  · exact moves_of_rejected h

theorem moves_of_withReason {s t : State} {r : BitVec 8} {i : Instr} {f : Fin 8 → Result}
    (hf : ∀ c, f c = .next t → Moves s t) (h : s.withReason r i f = .next t) : Moves s t := by
  unfold State.withReason at h
  split at h
  · exact hf _ h
  · exact moves_of_rejected h

theorem moves_of_withExtra {s t : State} {a : BitVec 8} {i : Instr} {f : Fin 2 → Result}
    (hf : ∀ c, f c = .next t → Moves s t) (h : s.withExtra a i f = .next t) : Moves s t := by
  unfold State.withExtra at h
  split at h
  · exact hf _ h
  · exact moves_of_rejected h

theorem moves_of_writeBanked {s t : State} {c : CoreId} {b : Bank} {index : BitVec 4} {value : Word}
    (h : s.writeBanked c b index value = .next t) : Moves s t := by
  unfold State.writeBanked at h
  split at h
  · cases h; exact ((Moves.refl s).branch _ _).respOpen
  · rename_i hi
    cases h
    obtain ⟨h1, h2, h3, h4, h5, -, -⟩ := (s.core c).writeSlot_frame (phys b index) value (phys_ne_pc b index hi)
    exact ((Moves.refl s).register c _ h1 h2 h3 h4 h5).respOpen

/-- Every CPU word that answers a next state gets there by moves. -/
theorem exec_moves_cpu {i : Instr} {s t : State} (hi : i.format = .cpu) (h : exec i s = .next t) : Moves s t := by
  have r := Moves.refl s
  cases i <;> try (exfalso; simp [Instr.format] at hi; done)
  case regRead core index =>
    exact moves_of_withCore (fun c _ => moves_of_withBank fun b h => by cases h; exact r.respond _) h
  case regWrite core index value =>
    exact moves_of_withCore (fun c _ => moves_of_withBank fun b => moves_of_writeBanked) h
  case pcWrite core target =>
    exact moves_of_withCore (fun c _ h => by cases h; exact (r.branch _ _).respOpen) h
  case statusRead core =>
    exact moves_of_withCore (fun c _ h => by cases h; exact r.respond _) h
  case statusWrite core value =>
    refine moves_of_withCore (fun c _ h => ?_) h
    split at h
    · rename_i hv; cases h; exact (r.statusWrite c hv).respOpen
    · exact moves_of_faulted h
  case savedStatusRead core =>
    refine moves_of_withCore (fun c _ => moves_of_withBank fun b h => ?_) h
    cases b
    · cases h; exact (r.log _ _).respOpen
    · cases h; exact r.respond _
  case savedStatusWrite core value =>
    refine moves_of_withCore (fun c _ => moves_of_withBank fun b h => ?_) h
    cases b with
    | normal => exact moves_of_rejected h
    | priv p =>
      cases h
      obtain ⟨h1, h2, h3, h4, h5, -, -⟩ := (s.core c).withSaved_frame p value
      exact (r.register c _ h1 h2 h3 h4 h5).respOpen
  case bankRegRead core index mode =>
    exact moves_of_withCore (fun c _ => moves_of_withBank fun b h => by cases h; exact r.respond _) h
  case bankRegWrite core index mode value =>
    exact moves_of_withCore (fun c _ => moves_of_withBank fun b => moves_of_writeBanked) h
  case trap core exc back =>
    refine moves_of_withCore (fun c _ h => ?_) h
    split at h
    · exact moves_of_rejected h
    · cases h
      refine Moves.respOpen ?_
      unfold State.excEntry
      rw [State.setCore_setCore]
      refine r.redirect c _ (fun _ => ?_) ?_
      · rw [CpuContext.enter_status, modeOf_entryStatus]; exact excMode_mem _
      · rw [CpuContext.enter_readyAt, State.core_setCore_same]
  case excReturn core target =>
    refine moves_of_withCore (fun c _ => moves_of_withBank fun b h => ?_) h
    cases b with
    | normal => exact moves_of_faulted h
    | priv p =>
      simp only at h
      split at h
      · rename_i hv; cases h; exact (r.excReturn c target hv).respOpen
      · exact moves_of_faulted h
  case waitIrq core =>
    exact moves_of_withCore (fun c _ h => by cases h; exact (r.halt _ _).respOpen) h

/-- Every command but `RUN` and `RESET` that answers a next state gets there by moves. -/
theorem exec_moves_cmd {i : Instr} {s t : State} (hi : i.format = .cmd) (hh : i.hostOnly = false)
    (h : exec i s = .next t) : Moves s t := by
  have r := Moves.refl s
  have q : ∀ {u : State}, SameCore s u → Moves s u := Moves.of_same
  cases i <;> try first
    | (exfalso; simp [Instr.format] at hi; done)
    | (exfalso; simp [Instr.hostOnly] at hh; done)
  case schedule task delay =>
    simp only [exec, execSchedule] at h
    split at h
    · rename_i hl
      split at h
      · rename_i hd; cases h; exact (r.schedule task delay hl hd).respOpen
      · exact moves_of_faulted h
    · exact moves_of_rejected h
  case sendIrq target type =>
    simp only [exec, execSendIrq] at h
    split at h
    · split at h
      · cases h
        refine ((q ?_).kick mgmtCore).respOpen
        exact ⟨rfl, rfl, rfl, rfl, rfl, rfl, rfl, rfl, rfl, rfl⟩
      · exact moves_of_rejected h
    · split at h
      · exact moves_of_withType (fun y h => by cases h; exact (r.broadcast y).respOpen) h
      · exact moves_of_withSym (fun c => moves_of_withType fun y h => by cases h; exact (r.sendSym c y).respOpen) h
  case halt core reason =>
    exact moves_of_withCore (fun c _ => moves_of_withReason fun y h => by cases h; exact (r.halt c y).respOpen) h
  case unhalt core reason =>
    exact moves_of_withCore (fun c _ => moves_of_withReason fun y h => by
      cases h; refine (r.register c _ ?_ ?_ ?_ ?_ ?_).respOpen <;> rfl) h
  case sgi core type mask mode =>
    refine moves_of_withSym (fun c h => ?_) h
    split at h
    · exact moves_of_rejected h
    · split at h
      · exact moves_of_rejected h
      · cases h; exact (r.sgiSend _ _ _).respOpen
  case mgmtEnableWrite value =>
    cases h
    refine ((q ?_).irqCheck mgmtCore).respOpen
    exact ⟨rfl, rfl, rfl, rfl, rfl, rfl, rfl, rfl, rfl, rfl⟩
  case mgmtPendClear mask => cases h; exact q ⟨rfl, rfl, rfl, rfl, rfl, rfl, rfl, rfl, rfl, rfl⟩
  case mgmtPendRead => cases h; exact r.respond _
  case mgmtEnableRead => cases h; exact r.respond _
  case distEnableWrite value =>
    cases h
    refine (((((q ?_).irqCheck 0).irqCheck 1).irqCheck 2).irqCheck 3).respOpen
    exact ⟨rfl, rfl, rfl, rfl, rfl, rfl, rfl, rfl, rfl, rfl⟩
  case localEnableWrite core value =>
    exact moves_of_withSym (fun c h => by cases h; exact ((r.setSymIrq c _).irqCheck _).respOpen) h
  case irqEnableSet core type =>
    exact moves_of_withSym (fun c => moves_of_withType fun y h => by
      cases h; exact ((r.setSymIrq c _).irqCheck _).respOpen) h
  case irqEnableClear core type =>
    exact moves_of_withSym (fun c => moves_of_withType fun y h => by cases h; exact (r.setSymIrq c _).respOpen) h
  case routeWrite type mask =>
    exact moves_of_withType (fun y h => by cases h; exact q ⟨rfl, rfl, rfl, rfl, rfl, rfl, rfl, rfl, rfl, rfl⟩) h
  case irqAck core =>
    refine moves_of_withSym (fun c h => ?_) h
    split at h
    · cases h; exact r.respond _
    · cases h; exact (r.setSymIrq c _).respond _
  case irqEoi core type =>
    exact moves_of_withSym (fun c => moves_of_withType fun y h => by
      cases h; exact ((r.setSymIrq c _).irqCheck _).respOpen) h
  case xcoreStart core =>
    exact moves_of_withExtra (fun e h => by cases h; exact (r.setExtra e _).coreConfig.respOpen) h
  case xcoreShutdownReq core =>
    refine moves_of_withExtra (fun e h => ?_) h
    split at h
    · cases h; exact (r.setExtra e _).respOpen
    · cases h; exact r.respOpen
  case excBaseWrite core value =>
    exact moves_of_withCore (fun c _ h => by
      cases h; refine (r.register c _ ?_ ?_ ?_ ?_ ?_).respOpen <;> rfl) h
  case perfModeWrite value => cases h; exact q ⟨rfl, rfl, rfl, rfl, rfl, rfl, rfl, rfl, rfl, rfl⟩
  case readCycle => cases h; exact r.respond _

end Sys2Proof.Machine
end

