-- ==== Sys2Proof/Laws/Answers.lean ====
section
/-! SUPPORT. No operation writes the notes of the agent that issues it: what the shared operations, and with them every
command but `RUN` and `RESET`, do to `answers`, `params` and `phase`. -/

namespace Sys2Proof.Machine

/-! ## What moves leave alone -/

theorem Moves.params_eq {s t : State} (h : Moves s t) : t.params = s.params := by
  induction h with
  | refl => rfl
  | quiet _ k ih => rw [k.params, ih]
  | context _ _ _ _ _ ih => exact ih
  | kick _ c ih => unfold State.kick; split <;> exact ih
  | schedule _ _ _ _ _ ih => exact ih
  | log _ _ _ ih => exact ih

theorem Moves.phase_eq {s t : State} (h : Moves s t) : t.phase = s.phase := by
  induction h with
  | refl => rfl
  | quiet _ k ih => rw [k.phase, ih]
  | context _ _ _ _ _ ih => exact ih
  | kick _ c ih => unfold State.kick; split <;> exact ih
  | schedule _ _ _ _ _ ih => exact ih
  | log _ _ _ ih => exact ih

/-! ## The shared operations and the notes -/

@[simp] theorem State.kick_answers (s : State) (t : CoreId) : (s.kick t).answers = s.answers := by
  unfold State.kick; split <;> rfl

@[simp] theorem State.irqCheck_answers (s : State) (t : CoreId) : (s.irqCheck t).answers = s.answers := by
  unfold State.irqCheck; split <;> simp

@[simp] theorem State.sendSym_answers (s : State) (c : SymId) (y : IrqType) : (s.sendSym c y).answers = s.answers := by
  unfold State.sendSym; split <;> simp

@[simp] theorem State.broadcast_answers (s : State) (y : IrqType) : (s.broadcast y).answers = s.answers := by
  simp [State.broadcast]

@[simp] theorem State.sgiSend_answers (s : State) (i : SymId) (y : Fin 16) (m : BitVec 4) :
    (s.sgiSend i y m).answers = s.answers := by
  have one : ∀ (s : State) c, (s.sgiTo i y m c).answers = s.answers := by
    intro s c; unfold State.sgiTo; split <;> simp
  simp [State.sgiSend, one]

@[simp] theorem State.clusterCheck_answers (s : State) (c : CoreId) : (s.clusterCheck c).answers = s.answers := by
  unfold State.clusterCheck State.clusterIdle
  split
  · split <;> simp
  · rfl

@[simp] theorem State.shutdownCheck_answers (s : State) (c : CoreId) : (s.shutdownCheck c).answers = s.answers := by
  have one : ∀ e, (s.shutdownSeq e).answers = s.answers := by
    intro e; unfold State.shutdownSeq; simp only
    split
    · split <;> rfl
    · rfl
  unfold State.shutdownCheck
  split <;> simp [one]

@[simp] theorem State.halt_answers (s : State) (c : CoreId) (r : Fin 8) : (s.halt c r).answers = s.answers := by
  simp [State.halt]

/-! ## Commands -/

theorem answers_of_withSym {s t : State} {a : BitVec 8} {i : Instr} {f : SymId → Result}
    (hf : ∀ c, f c = .next t → t.answers = s.answers) (h : s.withSym a i f = .next t) : t.answers = s.answers := by
  unfold State.withSym at h
  split at h
  · exact hf _ h
  · cases h; rfl

theorem answers_of_withType {s t : State} {a : BitVec 16} {i : Instr} {f : IrqType → Result}
    (hf : ∀ y, f y = .next t → t.answers = s.answers) (h : s.withType a i f = .next t) : t.answers = s.answers := by
  unfold State.withType at h
  split at h
  · exact hf _ h
  · cases h; rfl

theorem answers_of_withCore {s t : State} {a : BitVec 8} {i : Instr} {f : CoreId → Result}
    (hf : ∀ c, f c = .next t → t.answers = s.answers) (h : s.withCore a i f = .next t) : t.answers = s.answers := by
  unfold State.withCore at h
  split at h
  · exact hf _ h
  · cases h; rfl

theorem answers_of_withReason {s t : State} {a : BitVec 8} {i : Instr} {f : Fin 8 → Result}
    (hf : ∀ r, f r = .next t → t.answers = s.answers) (h : s.withReason a i f = .next t) : t.answers = s.answers := by
  unfold State.withReason at h
  split at h
  · exact hf _ h
  · cases h; rfl

theorem answers_of_withExtra {s t : State} {a : BitVec 8} {i : Instr} {f : Fin 2 → Result}
    (hf : ∀ e, f e = .next t → t.answers = s.answers) (h : s.withExtra a i f = .next t) : t.answers = s.answers := by
  unfold State.withExtra at h
  split at h
  · exact hf _ h
  · cases h; rfl

/-- No command but `RUN` and `RESET` writes the notes of the agent that issues it. -/
theorem exec_answers_cmd {i : Instr} {s t : State} (hi : i.format = .cmd) (hh : i.hostOnly = false)
    (h : exec i s = .next t) : t.answers = s.answers := by
  cases i <;> try first
    | (exfalso; simp [Instr.format] at hi; done)
    | (exfalso; simp [Instr.hostOnly] at hh; done)
    | (cases h; simp)
  case schedule task delay =>
    simp only [exec, execSchedule] at h
    split at h
    · split at h <;> cases h <;> rfl
    · cases h; rfl
  case sendIrq target type =>
    simp only [exec, execSendIrq] at h
    split at h
    · split at h <;> cases h <;> simp [State.reject]
    · split at h
      · exact answers_of_withType (fun y h => by cases h; simp) h
      · exact answers_of_withSym (fun c => answers_of_withType fun y h => by cases h; simp) h
  case halt core reason =>
    exact answers_of_withCore (fun c => answers_of_withReason fun r h => by cases h; simp) h
  case unhalt core reason =>
    exact answers_of_withCore (fun c => answers_of_withReason fun r h => by cases h; simp) h
  case sgi core type mask mode =>
    refine answers_of_withSym (fun c h => ?_) h
    split at h
    · cases h; rfl
    · split at h <;> cases h <;> simp [State.reject]
  case localEnableWrite core value => exact answers_of_withSym (fun c h => by cases h; simp) h
  case irqEnableSet core type =>
    exact answers_of_withSym (fun c => answers_of_withType fun y h => by cases h; simp) h
  case irqEnableClear core type =>
    exact answers_of_withSym (fun c => answers_of_withType fun y h => by cases h; simp) h
  case routeWrite type mask => exact answers_of_withType (fun y h => by cases h; simp) h
  case irqAck core =>
    refine answers_of_withSym (fun c h => ?_) h
    split at h <;> cases h <;> simp
  case irqEoi core type =>
    exact answers_of_withSym (fun c => answers_of_withType fun y h => by cases h; simp) h
  case xcoreStart core => exact answers_of_withExtra (fun e h => by cases h; simp) h
  case xcoreShutdownReq core =>
    refine answers_of_withExtra (fun e h => ?_) h
    split at h <;> cases h <;> simp
  case excBaseWrite core value => exact answers_of_withCore (fun c h => by cases h; simp) h

end Sys2Proof.Machine
end

