-- ==== Sys2Proof/Laws/Decode.lean ====
section
/-! SUPPORT. The fields of an operation word: a word is its four fields, and the fields of a word just made are those
it was made of. -/

namespace Sys2Proof

/-- The low part of an append. -/
theorem extractLsb'_append_low {m n : Nat} (x : BitVec m) (y : BitVec n) : (x ++ y).extractLsb' 0 n = y := by
  apply BitVec.eq_of_getLsbD_eq
  intro i hi
  simp [BitVec.getLsbD_append, hi]

/-- A part of an append that lies in its high part. -/
theorem extractLsb'_append_high {m n : Nat} (x : BitVec m) (y : BitVec n) (k l : Nat) :
    (x ++ y).extractLsb' (n + k) l = x.extractLsb' k l := by
  apply BitVec.eq_of_getLsbD_eq
  intro i hi
  have h1 : ¬ n + k + i < n := by omega
  have h2 : n + k + i - n = k + i := by omega
  simp [BitVec.getLsbD_append, h1, h2]

/-- A part of an append that lies in its low part. -/
theorem extractLsb'_append_of_le {m n : Nat} (x : BitVec m) (y : BitVec n) {k l : Nat} (h : k + l ≤ n) :
    (x ++ y).extractLsb' k l = y.extractLsb' k l := by
  apply BitVec.eq_of_getLsbD_eq
  intro i hi
  have h1 : k + i < n := by omega
  simp [BitVec.getLsbD_append, h1]

/-- A vector is its high part on its low part. -/
theorem append_extractLsb' {m n : Nat} (x : BitVec (m + n)) : x.extractLsb' n m ++ x.extractLsb' 0 n = x := by
  apply BitVec.eq_of_getLsbD_eq
  intro i hi
  simp only [BitVec.getLsbD_append, BitVec.getLsbD_extractLsb']
  by_cases h : i < n
  · simp [h]
  · have h1 : i - n < m := by omega
    have h2 : n + (i - n) = i := by omega
    simp [h, h1, h2]

theorem fieldD_mkWord (op a : BitVec 8) (b : BitVec 16) (d : BitVec 64) : fieldD (mkWord op a b d) = d :=
  extractLsb'_append_low _ d

theorem fieldB_mkWord (op a : BitVec 8) (b : BitVec 16) (d : BitVec 64) : fieldB (mkWord op a b d) = b :=
  (extractLsb'_append_high (op ++ a ++ b) d 0 16).trans (extractLsb'_append_low _ b)

theorem fieldA_mkWord (op a : BitVec 8) (b : BitVec 16) (d : BitVec 64) : fieldA (mkWord op a b d) = a :=
  (extractLsb'_append_high (op ++ a ++ b) d 16 8).trans
    ((extractLsb'_append_high (op ++ a) b 0 8).trans (extractLsb'_append_low _ a))

theorem fieldOp_mkWord (op a : BitVec 8) (b : BitVec 16) (d : BitVec 64) : fieldOp (mkWord op a b d) = op :=
  (extractLsb'_append_high (op ++ a ++ b) d 24 8).trans
    ((extractLsb'_append_high (op ++ a) b 8 8).trans
      ((extractLsb'_append_high op a 0 8).trans BitVec.extractLsb'_eq_self))

/-- A word is made of its fields. -/
theorem mkWord_fields (w : OpWord) : mkWord (fieldOp w) (fieldA w) (fieldB w) (fieldD w) = w := by
  unfold mkWord
  apply BitVec.eq_of_getLsbD_eq
  intro i hi
  simp only [BitVec.getLsbD_append, fieldOp, fieldA, fieldB, fieldD, BitVec.getLsbD_extractLsb']
  by_cases h1 : i < 64
  · simp [h1]
  · by_cases h2 : i - 64 < 16
    · have : 64 + (i - 64) = i := by omega
      simp [h1, h2, this]
    · by_cases h3 : i - 64 - 16 < 8
      · have : 80 + (i - 64 - 16) = i := by omega
        simp [h1, h2, h3, this]
      · have h4 : i - 64 - 16 - 8 < 8 := by omega
        have : 88 + (i - 64 - 16 - 8) = i := by omega
        simp [h1, h2, h3, h4, this]

/-- Decoding a word made of fields looks at those fields. -/
theorem decode_mkWord (op a : BitVec 8) (b : BitVec 16) (d : BitVec 64) :
    decode (.op (mkWord op a b d)) = decodeFields op a b d := by
  simp only [decode, decodeOp, fieldOp_mkWord, fieldA_mkWord, fieldB_mkWord, fieldD_mkWord]

/-! ## What each op code selects -/

theorem decodeFields_schedule (a : BitVec 8) (b : BitVec 16) (d : BitVec 64) :
    decodeFields 0x01#8 a b d =
      whenReservedZero (decide (b = 0#16)) (.schedule a d) := rfl

theorem decodeFields_sendIrq (a : BitVec 8) (b : BitVec 16) (d : BitVec 64) :
    decodeFields 0x02#8 a b d =
      whenReservedZero (decide (d = 0#64)) (.sendIrq a b) := rfl

theorem decodeFields_halt (a : BitVec 8) (b : BitVec 16) (d : BitVec 64) :
    decodeFields 0x03#8 a b d =
      whenReservedZero (decide (b.extractLsb' 8 8 = 0#8 ∧ d = 0#64)) (.halt a (b.extractLsb' 0 8)) := rfl

theorem decodeFields_unhalt (a : BitVec 8) (b : BitVec 16) (d : BitVec 64) :
    decodeFields 0x04#8 a b d =
      whenReservedZero (decide (b.extractLsb' 8 8 = 0#8 ∧ d = 0#64)) (.unhalt a (b.extractLsb' 0 8)) := rfl

theorem decodeFields_sgi (a : BitVec 8) (b : BitVec 16) (d : BitVec 64) :
    decodeFields 0x05#8 a b d =
      whenReservedZero (decide (b = 0#16 ∧ d.extractLsb' 26 38 = 0#38 ∧ d.extractLsb' 20 4 = 0#4 ∧ d.extractLsb' 10 6 = 0#6)) (.sgi a (d.extractLsb' 0 10) (d.extractLsb' 16 4) (d.extractLsb' 24 2)) := rfl

theorem decodeFields_mgmtEnableWrite (a : BitVec 8) (b : BitVec 16) (d : BitVec 64) :
    decodeFields 0x06#8 a b d =
      whenReservedZero (decide (a = 0#8 ∧ b = 0#16 ∧ d.extractLsb' 32 32 = 0#32)) (.mgmtEnableWrite (d.extractLsb' 0 32)) := rfl

theorem decodeFields_mgmtPendClear (a : BitVec 8) (b : BitVec 16) (d : BitVec 64) :
    decodeFields 0x07#8 a b d =
      whenReservedZero (decide (a = 0#8 ∧ b = 0#16 ∧ d.extractLsb' 32 32 = 0#32)) (.mgmtPendClear (d.extractLsb' 0 32)) := rfl

theorem decodeFields_mgmtPendRead (a : BitVec 8) (b : BitVec 16) (d : BitVec 64) :
    decodeFields 0x08#8 a b d =
      whenReservedZero (decide (a = 0#8 ∧ b = 0#16 ∧ d = 0#64)) (.mgmtPendRead) := rfl

theorem decodeFields_mgmtEnableRead (a : BitVec 8) (b : BitVec 16) (d : BitVec 64) :
    decodeFields 0x09#8 a b d =
      whenReservedZero (decide (a = 0#8 ∧ b = 0#16 ∧ d = 0#64)) (.mgmtEnableRead) := rfl

theorem decodeFields_distEnableWrite (a : BitVec 8) (b : BitVec 16) (d : BitVec 64) :
    decodeFields 0x0A#8 a b d =
      whenReservedZero (decide (a = 0#8 ∧ b = 0#16 ∧ d.extractLsb' 1 63 = 0#63)) (.distEnableWrite (d.extractLsb' 0 1)) := rfl

theorem decodeFields_localEnableWrite (a : BitVec 8) (b : BitVec 16) (d : BitVec 64) :
    decodeFields 0x0B#8 a b d =
      whenReservedZero (decide (b = 0#16 ∧ d.extractLsb' 1 63 = 0#63)) (.localEnableWrite a (d.extractLsb' 0 1)) := rfl

theorem decodeFields_irqEnableSet (a : BitVec 8) (b : BitVec 16) (d : BitVec 64) :
    decodeFields 0x0C#8 a b d =
      whenReservedZero (decide (d = 0#64)) (.irqEnableSet a b) := rfl

theorem decodeFields_irqEnableClear (a : BitVec 8) (b : BitVec 16) (d : BitVec 64) :
    decodeFields 0x0D#8 a b d =
      whenReservedZero (decide (d = 0#64)) (.irqEnableClear a b) := rfl

theorem decodeFields_routeWrite (a : BitVec 8) (b : BitVec 16) (d : BitVec 64) :
    decodeFields 0x0E#8 a b d =
      whenReservedZero (decide (a = 0#8 ∧ d.extractLsb' 4 60 = 0#60)) (.routeWrite b (d.extractLsb' 0 4)) := rfl

theorem decodeFields_irqAck (a : BitVec 8) (b : BitVec 16) (d : BitVec 64) :
    decodeFields 0x0F#8 a b d =
      whenReservedZero (decide (b = 0#16 ∧ d = 0#64)) (.irqAck a) := rfl

theorem decodeFields_irqEoi (a : BitVec 8) (b : BitVec 16) (d : BitVec 64) :
    decodeFields 0x10#8 a b d =
      whenReservedZero (decide (d = 0#64)) (.irqEoi a b) := rfl

theorem decodeFields_xcoreStart (a : BitVec 8) (b : BitVec 16) (d : BitVec 64) :
    decodeFields 0x11#8 a b d =
      whenReservedZero (decide (b = 0#16 ∧ d = 0#64)) (.xcoreStart a) := rfl

theorem decodeFields_xcoreShutdownReq (a : BitVec 8) (b : BitVec 16) (d : BitVec 64) :
    decodeFields 0x12#8 a b d =
      whenReservedZero (decide (b = 0#16 ∧ d = 0#64)) (.xcoreShutdownReq a) := rfl

theorem decodeFields_excBaseWrite (a : BitVec 8) (b : BitVec 16) (d : BitVec 64) :
    decodeFields 0x13#8 a b d =
      whenReservedZero (decide (b = 0#16 ∧ d.extractLsb' 32 32 = 0#32)) (.excBaseWrite a (d.extractLsb' 0 32)) := rfl

theorem decodeFields_perfModeWrite (a : BitVec 8) (b : BitVec 16) (d : BitVec 64) :
    decodeFields 0x14#8 a b d =
      whenReservedZero (decide (a = 0#8 ∧ b = 0#16 ∧ d.extractLsb' 32 32 = 0#32)) (.perfModeWrite (d.extractLsb' 0 32)) := rfl

theorem decodeFields_readCycle (a : BitVec 8) (b : BitVec 16) (d : BitVec 64) :
    decodeFields 0x15#8 a b d =
      whenReservedZero (decide (a = 0#8 ∧ b = 0#16 ∧ d = 0#64)) (.readCycle) := rfl

theorem decodeFields_run (a : BitVec 8) (b : BitVec 16) (d : BitVec 64) :
    decodeFields 0x16#8 a b d =
      whenReservedZero (decide (a = 0#8 ∧ b = 0#16 ∧ d = 0#64)) (.run) := rfl

theorem decodeFields_reset (a : BitVec 8) (b : BitVec 16) (d : BitVec 64) :
    decodeFields 0x17#8 a b d =
      whenReservedZero (decide (a = 0#8 ∧ b = 0#16 ∧ d = 0#64)) (.reset) := rfl

theorem decodeFields_regRead (a : BitVec 8) (b : BitVec 16) (d : BitVec 64) :
    decodeFields 0x40#8 a b d =
      whenReservedZero (decide (b.extractLsb' 4 12 = 0#12 ∧ d = 0#64)) (.regRead a (b.extractLsb' 0 4)) := rfl

theorem decodeFields_regWrite (a : BitVec 8) (b : BitVec 16) (d : BitVec 64) :
    decodeFields 0x41#8 a b d =
      whenReservedZero (decide (b.extractLsb' 4 12 = 0#12 ∧ d.extractLsb' 32 32 = 0#32)) (.regWrite a (b.extractLsb' 0 4) (d.extractLsb' 0 32)) := rfl

theorem decodeFields_pcWrite (a : BitVec 8) (b : BitVec 16) (d : BitVec 64) :
    decodeFields 0x42#8 a b d =
      whenReservedZero (decide (b = 0#16 ∧ d.extractLsb' 32 32 = 0#32)) (.pcWrite a (d.extractLsb' 0 32)) := rfl

theorem decodeFields_statusRead (a : BitVec 8) (b : BitVec 16) (d : BitVec 64) :
    decodeFields 0x43#8 a b d =
      whenReservedZero (decide (b = 0#16 ∧ d = 0#64)) (.statusRead a) := rfl

theorem decodeFields_statusWrite (a : BitVec 8) (b : BitVec 16) (d : BitVec 64) :
    decodeFields 0x44#8 a b d =
      whenReservedZero (decide (b = 0#16 ∧ d.extractLsb' 32 32 = 0#32)) (.statusWrite a (d.extractLsb' 0 32)) := rfl

theorem decodeFields_savedStatusRead (a : BitVec 8) (b : BitVec 16) (d : BitVec 64) :
    decodeFields 0x45#8 a b d =
      whenReservedZero (decide (b = 0#16 ∧ d = 0#64)) (.savedStatusRead a) := rfl

theorem decodeFields_savedStatusWrite (a : BitVec 8) (b : BitVec 16) (d : BitVec 64) :
    decodeFields 0x46#8 a b d =
      whenReservedZero (decide (b = 0#16 ∧ d.extractLsb' 32 32 = 0#32)) (.savedStatusWrite a (d.extractLsb' 0 32)) := rfl

theorem decodeFields_bankRegRead (a : BitVec 8) (b : BitVec 16) (d : BitVec 64) :
    decodeFields 0x47#8 a b d =
      whenReservedZero (decide (b.extractLsb' 13 3 = 0#3 ∧ b.extractLsb' 4 4 = 0#4 ∧ d = 0#64)) (.bankRegRead a (b.extractLsb' 0 4) (b.extractLsb' 8 5)) := rfl

theorem decodeFields_bankRegWrite (a : BitVec 8) (b : BitVec 16) (d : BitVec 64) :
    decodeFields 0x48#8 a b d =
      whenReservedZero (decide (b.extractLsb' 13 3 = 0#3 ∧ b.extractLsb' 4 4 = 0#4 ∧ d.extractLsb' 32 32 = 0#32)) (.bankRegWrite a (b.extractLsb' 0 4) (b.extractLsb' 8 5) (d.extractLsb' 0 32)) := rfl

theorem decodeFields_trap (a : BitVec 8) (b : BitVec 16) (d : BitVec 64) :
    decodeFields 0x49#8 a b d =
      whenReservedZero (decide (b.extractLsb' 3 13 = 0#13 ∧ d.extractLsb' 32 32 = 0#32)) (.trap a (b.extractLsb' 0 3) (d.extractLsb' 0 32)) := rfl

theorem decodeFields_excReturn (a : BitVec 8) (b : BitVec 16) (d : BitVec 64) :
    decodeFields 0x4A#8 a b d =
      whenReservedZero (decide (b = 0#16 ∧ d.extractLsb' 32 32 = 0#32)) (.excReturn a (d.extractLsb' 0 32)) := rfl

theorem decodeFields_waitIrq (a : BitVec 8) (b : BitVec 16) (d : BitVec 64) :
    decodeFields 0x4B#8 a b d =
      whenReservedZero (decide (b = 0#16 ∧ d = 0#64)) (.waitIrq a) := rfl

end Sys2Proof
end

