-- ==== Sys2Proof/Laws/Memory.lean ====
section
/-! SUPPORT. The external memory: a read after a write, and that every operation keeps the canonical form. -/

namespace Sys2Proof.Machine

/-- A canonical memory from `lo` is one from any lower bound. -/
theorem Memory.wfFrom_mono {lo lo' : Nat} {m : List Host.Cell} (h : lo' ≤ lo) (hm : Memory.wfFrom lo m = true) :
    Memory.wfFrom lo' m = true := by
  cases m with
  | nil => rfl
  | cons c m =>
    simp only [Memory.wfFrom, Bool.and_eq_true, decide_eq_true_eq] at hm ⊢
    exact ⟨⟨⟨by omega, hm.1.1.2⟩, hm.1.2⟩, hm.2⟩

/-- Below its lower bound a canonical memory lists nothing. -/
theorem Memory.read_below {lo a : Nat} {m : List Host.Cell} (hm : Memory.wfFrom lo m = true) (h : a < lo) :
    Memory.read m a = Memory.unlisted := by
  induction m generalizing lo with
  | nil => rfl
  | cons c m ih =>
    simp only [Memory.wfFrom, Bool.and_eq_true, decide_eq_true_eq] at hm
    have hne : c.1 ≠ a := by omega
    simp only [Memory.read, hne, if_false]
    exact ih hm.2 (by omega)

/-- The cells of one byte read as that byte at its address and as nothing elsewhere. -/
theorem Memory.read_cell_append {a b : Nat} {v : Byte} {m : List Host.Cell}
    (hm : Memory.read m a = Memory.unlisted) :
    Memory.read (Memory.cell a v ++ m) b = if b = a then v else Memory.read m b := by
  unfold Memory.cell
  by_cases hv : v = Memory.unlisted
  · by_cases hb : b = a
    · subst hb; simp [hv, hm]
    · simp [hv, hb]
  · by_cases hb : b = a
    · simp [hv, Memory.read, hb]
    · have : ¬ a = b := fun h => hb h.symm
      simp [hv, Memory.read, hb, this]

/-- A read after a write: the value written at its address, what stood there elsewhere. -/
theorem Memory.read_write {lo a b : Nat} {v : Byte} {m : List Host.Cell} (hm : Memory.wfFrom lo m = true) :
    Memory.read (Memory.write m a v) b = if b = a then v else Memory.read m b := by
  induction m generalizing lo with
  | nil =>
    have := Memory.read_cell_append (a := a) (b := b) (v := v) (m := []) rfl
    simpa [Memory.write] using this
  | cons c m ih =>
    have hm' := hm
    simp only [Memory.wfFrom, Bool.and_eq_true, decide_eq_true_eq] at hm
    simp only [Memory.write]
    by_cases h1 : a < c.1
    · rw [if_pos h1]
      refine Memory.read_cell_append ?_
      have : Memory.wfFrom c.1 (c :: m) = true := by
        simp only [Memory.wfFrom, Bool.and_eq_true, decide_eq_true_eq]
        exact ⟨⟨⟨by omega, hm.1.1.2⟩, hm.1.2⟩, hm.2⟩
      exact Memory.read_below this h1
    · rw [if_neg h1]
      by_cases h2 : a = c.1
      · rw [if_pos h2, Memory.read_cell_append (Memory.read_below hm.2 (by omega))]
        by_cases hb : b = a
        · simp [hb]
        · have : ¬ c.1 = b := fun h => hb (by omega)
          simp [hb, Memory.read, this]
      · rw [if_neg h2]
        simp only [Memory.read]
        by_cases hc : c.1 = b
        · have : b ≠ a := by omega
          simp [hc, this]
        · simp [hc, ih hm.2]

/-- The cells of one byte in front of a canonical memory are canonical. -/
theorem Memory.wf_cell_append {lo a : Nat} {v : Byte} {m : List Host.Cell} (hlo : lo ≤ a) (ha : a < 4294967296)
    (hm : Memory.wfFrom (a + 1) m = true) : Memory.wfFrom lo (Memory.cell a v ++ m) = true := by
  unfold Memory.cell
  split
  · exact Memory.wfFrom_mono (by omega) hm
  · rename_i hv
    simp [Memory.wfFrom, hlo, ha, hv, hm]

/-- A write keeps the canonical form. -/
theorem Memory.wf_write {lo a : Nat} {v : Byte} {m : List Host.Cell} (hm : Memory.wfFrom lo m = true) (hlo : lo ≤ a)
    (ha : a < 4294967296) : Memory.wfFrom lo (Memory.write m a v) = true := by
  induction m generalizing lo with
  | nil => simpa [Memory.write] using Memory.wf_cell_append (v := v) hlo ha (m := []) rfl
  | cons c m ih =>
    simp only [Memory.wfFrom, Bool.and_eq_true, decide_eq_true_eq] at hm
    simp only [Memory.write]
    by_cases h1 : a < c.1
    · rw [if_pos h1]
      refine Memory.wf_cell_append hlo ha ?_
      simp only [Memory.wfFrom, Bool.and_eq_true, decide_eq_true_eq]
      exact ⟨⟨⟨by omega, hm.1.1.2⟩, hm.1.2⟩, hm.2⟩
    · rw [if_neg h1]
      by_cases h2 : a = c.1
      · rw [if_pos h2]
        exact Memory.wf_cell_append hlo ha (Memory.wfFrom_mono (by omega) hm.2)
      · rw [if_neg h2]
        simp only [Memory.wfFrom, Bool.and_eq_true, decide_eq_true_eq]
        exact ⟨⟨⟨by omega, hm.1.1.2⟩, hm.1.2⟩, ih hm.2 (by omega)⟩

/-- One byte of a store keeps the canonical form. -/
theorem Memory.wf_storeByte {m : List Host.Cell} (hm : Memory.wf m = true) (a v : Word) (k : Nat) :
    Memory.wf (Memory.storeByte m a v k) = true :=
  Memory.wf_write hm (Nat.zero_le _) (a + BitVec.ofNat 32 k).isLt

/-- A store of any width keeps the canonical form. -/
theorem Memory.wf_store {m : List Host.Cell} (hm : Memory.wf m = true) (a : Word) (n : Width) (v : Word) :
    Memory.wf (Memory.store m a n v) = true := by
  cases n <;> simp only [Memory.store] <;> repeat' apply Memory.wf_storeByte
  all_goals exact hm

/-- One byte of a store: the byte at its address, every other byte as before. -/
theorem Memory.byteAt_storeByte {m : List Host.Cell} (hm : Memory.wf m = true) (a v b : Word) (k : Nat) :
    Memory.byteAt (Memory.storeByte m a v k) b =
      if b = a + BitVec.ofNat 32 k then v.extractLsb' (8 * k) 8 else Memory.byteAt m b := by
  unfold Memory.byteAt Memory.storeByte
  rw [Memory.read_write hm]
  simp only [BitVec.toNat_inj]

/-- The memory after reset lists nothing and is canonical. -/
theorem Memory.wf_reset : Memory.wf State.reset.mem = true := rfl

end Sys2Proof.Machine
end

