-- ==== Sys2Proof/Laws/Procedures.lean ====
section
/-! SUPPORT. The shared operations in the terms of `Safety.lean`: insertion into the queue, the refill of a pipeline,
register slots and saved statuses, and the memory. -/

namespace Sys2Proof.Machine

/-- Insertion is at the upper-bound position (R121). -/
theorem insertEvent_eq_upperInsert (e : Event) (q : List Event) : insertEvent e q = upperInsert e q := by
  unfold upperInsert
  induction q with
  | nil => rfl
  | cons x q ih =>
    simp only [insertEvent]
    by_cases h : e.due < x.due
    · have h' : ¬ x.due ≤ e.due := by simpa using h
      simp [h, h']
    · have h' : x.due ≤ e.due := by simpa using h
      simp [h, h', ih]

/-! ## Alignment and the refill -/

/-- Masking off the low `k` bits. -/
theorem and_high_mask (a : Word) (k : Nat) (m : Word) (hm : ∀ i < 32, m.getLsbD i = decide (k ≤ i)) :
    a &&& m = BitVec.ofNat 32 (a.toNat / 2 ^ k * 2 ^ k) := by
  apply BitVec.eq_of_getLsbD_eq
  intro i hi
  have e : a.toNat / 2 ^ k * 2 ^ k = (a.toNat >>> k) <<< k := by
    simp [Nat.shiftLeft_eq, Nat.shiftRight_eq_div_pow]
  rw [e, BitVec.getLsbD_and, hm i hi, BitVec.getLsbD_ofNat, Nat.testBit_shiftLeft, Nat.testBit_shiftRight]
  by_cases h1 : k ≤ i
  · simp [hi, h1, BitVec.getLsbD, Nat.add_sub_cancel' h1]
  · simp [h1]

/-- `Flush` refills from the aligned `pc` (R149). -/
theorem CpuContext.flushAddr_eq (k : CpuContext) : k.flushAddr = alignDown k.status k.pc := by
  unfold CpuContext.flushAddr alignDown
  rcases fetchWidth_cases k.status with ⟨h, w⟩ | ⟨h, w⟩ <;> rw [h, w] <;> simp only [Width.bytes, if_true]
  · exact and_high_mask _ 1 _ (by decide)
  · exact and_high_mask _ 2 _ (by decide)

/-- Writing `pc` and flushing is a redirection (R149, R172). -/
theorem State.flush_redirected (s : State) (c : CoreId) (k : CpuContext) (target : Word) :
    SameButCount ((s.setCore c { k with pc := target }).flush c) (s.redirected c k target) := by
  refine ⟨((s.setCore c { k with pc := target }).flush c).freeCount, ?_⟩
  unfold State.flush State.redirected
  simp only [State.core_setCore_same, CpuContext.flushAddr_eq]
  simp only [State.setCore, State.afterRead, Vector.set_set]
  rfl

/-! ## Slots and saved statuses -/

/-- Reading a slot after writing one. -/
theorem CpuContext.readSlot_writeSlot (k : CpuContext) (p q : Slot) (v : Word) :
    (k.writeSlot p v).readSlot q = if p = q then v else k.readSlot q := by
  cases p <;> cases q <;> simp [CpuContext.writeSlot, CpuContext.readSlot, Vector.getElem_set, Fin.ext_iff]

/-- Reading a saved status after writing one. -/
theorem CpuContext.saved_withSaved (k : CpuContext) (b d : PrivBank) (v : Word) :
    (k.withSaved b v).saved d = if b = d then v else k.saved d := by
  cases b <;> cases d <;> simp [CpuContext.withSaved, CpuContext.saved]

/-- Writing a saved status writes no slot. -/
theorem CpuContext.readSlot_withSaved (k : CpuContext) (p : Slot) (b : PrivBank) (v : Word) :
    (k.withSaved b v).readSlot p = k.readSlot p := by
  cases p <;> cases b <;> rfl

/-- Writing a slot writes no saved status. -/
theorem CpuContext.saved_writeSlot (k : CpuContext) (p : Slot) (b : PrivBank) (v : Word) :
    (k.writeSlot p v).saved b = k.saved b := by
  cases p <;> cases b <;> rfl

/-- A mode of the table has a bank (R31). -/
theorem bankOf_of_mem {m : BitVec 5} (h : m ∈ modes) : ∃ b, bankOf m = some b := by
  have key : ∀ m : BitVec 5, m ∈ modes ↔ (bankOf m).isSome = true := by decide
  exact Option.isSome_iff_exists.1 ((key m).1 h)

/-- Zero extension to the width of `resp` (R100). -/
theorem zext_eq_setWidth (v : Word) : (0#32 ++ v : BitVec 64) = v.setWidth 64 := by
  apply BitVec.eq_of_toNat_eq
  have := v.isLt
  rw [BitVec.toNat_append, BitVec.toNat_setWidth]
  simp only [BitVec.toNat_ofNat, Nat.zero_mod, Nat.zero_shiftLeft, Nat.zero_or]
  omega

/-! ## Bits -/

/-- Some bit is set in both of two vectors (R204). -/
theorem and_ne_zero_iff {n : Nat} (a b : BitVec n) :
    ((a &&& b) != 0#n) = true ↔ ∃ y : Fin n, a.getLsbD y.val = true ∧ b.getLsbD y.val = true := by
  rw [bne_iff_ne]
  constructor
  · intro h
    by_contra hn
    apply h
    apply BitVec.eq_of_getLsbD_eq
    intro i hi
    have := fun ha => fun hb => hn ⟨⟨i, hi⟩, ha, hb⟩
    simp only [BitVec.getLsbD_and, BitVec.getLsbD_zero]
    cases ha : a.getLsbD i <;> cases hb : b.getLsbD i <;> simp_all
  · rintro ⟨y, ha, hb⟩ h
    have := congrArg (fun v => v.getLsbD y.val) h
    simp only [BitVec.getLsbD_and, ha, hb, BitVec.getLsbD_zero] at this
    cases this

/-! ## Memory -/

/-- A byte beyond the width of a store reads as before (R72). -/
theorem Memory.byteAt_store_other {m : List Host.Cell} (hm : Memory.wf m = true) (a : Word) (n : Width) (v b : Word)
    (h : n.bytes.toNat ≤ (b - a).toNat) : Memory.byteAt (Memory.store m a n v) b = Memory.byteAt m b := by
  have h0 := fun (v : Word) k (m) (hm : Memory.wf m = true) => Memory.wf_storeByte hm a v k
  have ne : ∀ k : Nat, k < n.bytes.toNat → ¬ b = a + BitVec.ofNat 32 k := by
    intro k hk hb
    subst hb
    have hs : (a + BitVec.ofNat 32 k - a) = BitVec.ofNat 32 k := by rw [BitVec.add_comm]; simp
    rw [hs] at h
    have hv : (BitVec.ofNat 32 k).toNat = k := by
      cases n <;> simp [Width.bytes] at hk ⊢ <;> omega
    omega
  cases n <;> simp only [Width.bytes] at ne
  · have := ne 0 (by decide)
    simp only [Memory.store, Memory.byteAt_storeByte hm, this, if_false]
  · have := ne 0 (by decide)
    have := ne 1 (by decide)
    simp only [Memory.store, Memory.byteAt_storeByte hm, Memory.byteAt_storeByte (h0 v 0 m hm), *, if_false]
  · have := ne 0 (by decide)
    have := ne 1 (by decide)
    have := ne 2 (by decide)
    have := ne 3 (by decide)
    simp only [Memory.store, Memory.byteAt_storeByte hm, Memory.byteAt_storeByte (h0 v 0 m hm),
      Memory.byteAt_storeByte (h0 v 1 _ (h0 v 0 m hm)),
      Memory.byteAt_storeByte (h0 v 2 _ (h0 v 1 _ (h0 v 0 m hm))), *, if_false]

/-! ## What the issuer of a word notes -/

/-- What a callback notes of a word that is the operation `i`. -/
theorem State.heard_wordAnswer {w : OpWord} {i : Instr} (h : decode (.op w) = .ok i) (t : State) :
    t.heard (wordAnswer w t) = t.withAnswer i := by
  simp only [State.heard, wordAnswer, h, State.withAnswer]

/-- What an executor notes of a word that is the operation `i` and led from `s` to `t`. -/
theorem State.noted_wordAnswer {w : OpWord} {i : Instr} (h : decode (.op w) = .ok i) (s t : State) :
    t.noted (wordAnswer w t) (changedBy s t) = s.answered i t := by
  simp [State.noted, State.heard, wordAnswer, h, changedBy, State.answered, State.withAnswer]

end Sys2Proof.Machine
end

