-- ==== Sys2Proof/Laws/Step.lean ====
section
/-! SUPPORT. What one step can do, said once: `step_goesTo` takes a step that answers a next state apart, so that no
later proof unfolds the engine's loop. -/

namespace Sys2Proof.Machine

/-! ## Tasks -/

/-- The end of a delivery. -/
theorem Moves.deliverLine {s t : State} (h : Moves s t) (c : CoreId) : Moves s (t.deliverLine c) := by
  unfold State.deliverLine State.wakeAndEnter
  split
  · simp only
    split
    · refine h.register c _ ?_ ?_ ?_ ?_ ?_ <;> rfl
    · refine (Moves.register h c _ ?_ ?_ ?_ ?_ ?_).excEntry c _ <;> rfl
  · exact h

/-- Everything the dispatch of a task that answers `t` can have done. -/
inductive TaskTo (s : State) : TaskId → State → Prop where
  /-- `T_REBASE`. -/
  | rebase : TaskTo s 0#8 (s.rebase.schedule 0#8 s.params.rebaseHorizon).respOpen
  /-- `T_END_FRAME`. -/
  | endFrame : TaskTo s 1#8 { s with running := false }.respOpen
  /-- `T_CORE_CONFIG`. -/
  | coreConfig : TaskTo s 2#8 { s with fourCore := s.extra[0].started || s.extra[1].started }.respOpen
  /-- A delivery: the guard is cleared, and the rest is moves. -/
  | deliver (c : CoreId) {t} (m : Moves (s.clearGuard c) t) : TaskTo s (deliverTask c) t
  /-- A peripheral task. -/
  | peripheral (b : TaskId) (h : 8 ≤ b.toNat) (n : b.toNat < s.params.nTasks) :
      TaskTo s b ({ s with phase := .callback b, answers := [] }.emit (.callback b)).respOpen

/-- Everything the dispatch of a task that answers a next state can have done. -/
theorem exec_taskTo {s t : State} {b : TaskId} (h : exec (decodeTask b) s = .next t) : TaskTo s b t := by
  have extra : ∀ (e : Fin 2) (c : CoreId), Moves (s.clearGuard c) (s.deliverExtra e c).respOpen := by
    intro e c
    unfold State.deliverExtra
    simp only
    split
    · exact (((Moves.refl _).setExtra _ _).deliverLine _).respOpen
    · exact (Moves.refl _).respOpen
  unfold decodeTask at h
  split at h
  · cases h; exact .rebase
  · cases h; exact .endFrame
  · cases h; exact .coreConfig
  · cases h; exact .deliver 0 ((Moves.refl _).deliverLine _).respOpen
  · cases h; exact .deliver 1 ((Moves.refl _).deliverLine _).respOpen
  · cases h; exact .deliver 2 (extra 0 2)
  · cases h; exact .deliver 3 (extra 1 3)
  · cases h; exact .deliver 4 ((Moves.refl _).deliverLine _).respOpen
  · simp only [exec, execTPeripheral] at h
    split at h
    · rename_i hb; cases h; exact .peripheral b hb.1 hb.2
    · cases h

/-! ## Steps -/

/-- Two states that agree but for the host's tape. -/
def SameButTape (s t : State) : Prop := ∃ h, t = { s with hostIn := h }

/-- Two states that agree but for what the executor or the callback has noted. -/
def SameButNotes (s t : State) : Prop := ∃ a b, t = { s with answers := a, stepChanged := b }

theorem SameButTape.refl (s : State) : SameButTape s s := ⟨_, rfl⟩

theorem SameButNotes.refl (s : State) : SameButNotes s s := ⟨_, _, rfl⟩

theorem SameButNotes.noted (s : State) (a : Option (BitVec 64)) (b : Bool) : SameButNotes s (s.noted a b) := ⟨_, _, rfl⟩

theorem SameButNotes.heard (s : State) (a : Option (BitVec 64)) : SameButNotes s (s.heard a) := ⟨_, s.stepChanged, rfl⟩

/-- Noting something is a move. -/
theorem Moves.notes {s t u : State} (h : Moves s t) (n : SameButNotes t u) : Moves s u := by
  obtain ⟨_, _, rfl⟩ := n
  exact h.quiet ⟨rfl, rfl, rfl, rfl, rfl, rfl, rfl, rfl, rfl, rfl⟩

/-- Where `f` of a next state comes from. -/
theorem onNext_eq_next {r : Result} {f : State → State} {t : State} (h : onNext r f = .next t) :
    ∃ u, r = .next u ∧ t = f u := by
  unfold onNext at h
  split at h <;> cases h
  exact ⟨_, rfl, rfl⟩

/-- A word of the executor that answers a next state: the issue of the word, and a note. -/
theorem State.issueInStep_eq_next {s t : State} {p : Port} {w : OpWord} (h : s.issueInStep p w = .next t) :
    ∃ u, s.issue p w = .next u ∧ SameButNotes u t := by
  obtain ⟨u, hu, rfl⟩ := onNext_eq_next h
  exact ⟨u, hu, .noted _ _ _⟩

/-- What the executor does where the first line of its table speaks of the step as it stands. -/
theorem State.execAction_of_head {s : State} {c : CoreId} {opcode : Word} {a : ExecAction} {rest : List ExecRule}
    (h : s.params.executor = ⟨c, opcode, s.answers, a⟩ :: rest) : s.execAction c opcode = a := by
  simp [State.execAction, h]

/-- What the executor does depends on the table, the core, the opcode and the answers only (R150 (d)). -/
theorem State.execAction_congr {s t : State} (h : t.params.executor = s.params.executor) (ha : t.answers = s.answers)
    (c : CoreId) (opcode : Word) : t.execAction c opcode = s.execAction c opcode := by
  simp [State.execAction, h, ha]

/-- What a callback does depends on the registry, the task and the answers only: one callback for each task (R23). -/
theorem State.callbackAction_congr {s t : State} (h : t.params.registry = s.params.registry) (ha : t.answers = s.answers)
    (task : TaskId) : t.callbackAction task = s.callbackAction task := by
  simp [State.callbackAction, h, ha]

/-- What a callback does where the first line of the registry speaks of it as it stands. -/
theorem State.callbackAction_of_head {s : State} {task : TaskId} {a : CallbackAction} {rest : List CallbackRule}
    (h : s.params.registry = ⟨task, s.answers, a⟩ :: rest) : s.callbackAction task = a := by
  simp [State.callbackAction, h]

/-- A callback that does not return finds its action in a line of the registry for the answers so far. -/
theorem State.callbackAction_mem {s : State} {task : TaskId} (h : s.callbackAction task ≠ .ret) :
    ∃ r ∈ s.params.registry, r.task = task ∧ r.answers = s.answers ∧ r.action = s.callbackAction task := by
  unfold State.callbackAction at h ⊢
  split
  · rename_i r hr
    have := List.find?_some hr
    simp only [Bool.and_eq_true, beq_iff_eq] at this
    exact ⟨r, List.mem_of_find?_eq_some hr, this.1, this.2, rfl⟩
  · rename_i hn; simp [hn] at h

/-- Everything a step that answers `t` can have done. -/
inductive GoesTo (s : State) : State → Prop where
  /-- The agent whose turn it is was silent. -/
  | silent : GoesTo s s
  /-- The reset sequence tested its input. -/
  | waiting (h : s.phase = .inReset) : GoesTo s s.enterReset
  /-- The host issued `RESET`. -/
  | hostReset {rest} (h : s.phase = .idle) (w : s.hostIn = opWord .reset :: rest) :
      GoesTo s { s with hostIn := rest }.enterReset
  /-- The host issued `RUN`. -/
  | hostRun {u} (h : s.phase = .idle) (k : SameButTape s u) :
      GoesTo s { u with running := true, phase := .loopTop }.respOpen
  /-- A word other than `RUN` and `RESET` was issued on the command port. -/
  | command {u t v} (i : Instr) (f : i.format = .cmd) (o : i.hostOnly = false) (k : SameButTape s u)
      (m : exec i u = .next t) (n : SameButNotes t v) : GoesTo s v
  /-- The executor of the core whose step is in progress issued a CPU word. -/
  | cpuWord {t v c opcode cs} (i : Instr) (f : i.format = .cpu) (h : s.phase = .inStep c opcode cs)
      (own : ownCore c (cpuCoreField i) = true) (m : exec i s = .next t) (n : SameButNotes t v) : GoesTo s v
  /-- A word was rejected. -/
  | badWord {u v} (w : OpWord) (k : SameButTape s u) (n : SameButNotes (u.reject .badOp w) v) : GoesTo s v
  /-- `running` was 1. -/
  | again (h : s.phase = .loopTop) (r : s.running = true) : GoesTo s { s with phase := .passTop }
  /-- `running` was 0. -/
  | yields (h : s.phase = .loopTop) (r : s.running = false) : GoesTo s ({ s with phase := .idle }.emit .yield).respOpen
  /-- Another pass began. -/
  | newPass {e q} (h : s.phase = .passTop) (n : s.queue = e :: q) (l : s.now < e.due) :
      GoesTo s { s with phase := .visit (visitOrder s.fourCore) }
  /-- The event phase began. -/
  | jump {e q} (h : s.phase = .passTop) (n : s.queue = e :: q) (l : e.due ≤ s.now) :
      GoesTo s { s with now := e.due, phase := .eventPhase }
  /-- A core was not eligible. -/
  | skip {c cs} (h : s.phase = .visit (c :: cs)) (l : s.eligible c = false) : GoesTo s { s with phase := .visit cs }
  /-- A core's step began. -/
  | begin {c cs} (h : s.phase = .visit (c :: cs)) (l : s.eligible c = true) : GoesTo s (s.beginStep c cs)
  /-- The clock advanced. -/
  | advance {e q} (h : s.phase = .visit []) (n : s.queue = e :: q) :
      GoesTo s { s with now := maxCycle s.now (s.leastReady e.due (visitOrder s.fourCore)), phase := .passTop }
  /-- The executor read memory. -/
  | reads {c opcode cs v} (a : Word) (n : Width) (h : s.phase = .inStep c opcode cs)
      (k : SameButNotes (s.afterRead c a n) v) : GoesTo s v
  /-- The executor wrote memory. -/
  | writes {c opcode cs u} (a : Word) (n : Width) (v : Word) (h : s.phase = .inStep c opcode cs)
      (w : s.execAction c opcode = .memWrite a n v) (k : SameButNotes (s.memWrite c a n v) u) : GoesTo s u
  /-- The executor returned a cost. -/
  | returns {c opcode cs} (cost : BitVec 32) (h : s.phase = .inStep c opcode cs)
      (b : 1#32 ≤ cost ∧ cost ≤ 0x7FFFFFFF#32) : GoesTo s { s.charge c cost with phase := .visit cs }
  /-- The executor returned `Unrecognized`. -/
  | unrecognized {c opcode cs} (h : s.phase = .inStep c opcode cs) (u : s.stepChanged = false) :
      GoesTo s (s.returnUnrecognized c opcode cs)
  /-- An event was dispatched. -/
  | event {e q t} (h : s.phase = .eventPhase) (n : s.queue = e :: q) (l : e.due ≤ s.now)
      (m : exec (decodeTask e.task) { s with queue := q } = .next t) : GoesTo s t
  /-- The event phase ended. -/
  | eventsDone (h : s.phase = .eventPhase) : GoesTo s { s with phase := .loopTop }
  /-- A callback read memory. -/
  | callbackReads {task u} (a : Word) (n : Width) (h : s.phase = .callback task)
      (k : SameButNotes (s.externalRead a n) u) : GoesTo s u
  /-- A callback wrote memory. -/
  | callbackWrites {task u} (a : Word) (n : Width) (v : Word) (h : s.phase = .callback task)
      (w : s.callbackAction task = .memWrite a n v) (k : SameButNotes (s.externalWrite a n v) u) : GoesTo s u
  /-- A callback returned. -/
  | callbackDone {task} (h : s.phase = .callback task) : GoesTo s { s with phase := .eventPhase }

/-- The one word that stands for `RESET`. -/
theorem eq_opWord_reset {w : OpWord} (h : decode (.op w) = .ok .reset) : w = opWord .reset := by
  rw [← mkWord_fields w] at h ⊢
  rw [decode_mkWord] at h
  generalize fieldOp w = op at h ⊢
  generalize fieldA w = a at h ⊢
  generalize fieldB w = b at h ⊢
  generalize fieldD w = d at h ⊢
  by_cases hop : op = 0x17#8
  · subst hop
    rw [decodeFields_reset] at h
    unfold whenReservedZero at h
    split at h
    · rename_i hz
      obtain ⟨rfl, rfl, rfl⟩ := of_decide_eq_true hz
      rfl
    · cases h
  · unfold decodeFields at h
    split at h
    all_goals first
      | exact absurd rfl hop
      | (unfold whenReservedZero at h; split at h <;> simp at h)
      | cases h

/-- What a word on the command port can do. -/
theorem GoesTo.of_command {s u t v : State} (w : OpWord) (k : SameButTape s u)
    (h : u.issue .command w = .next t) (n : SameButNotes t v)
    (host : ∀ i, decode (.op w) = .ok i → i.hostOnly = true → portAccepts .command u.phase i = true →
      exec i u = .next t → GoesTo s v) : GoesTo s v := by
  unfold State.issue at h
  split at h
  · rename_i i hi
    split at h
    · rename_i hp
      cases ho : i.hostOnly
      · refine .command i ?_ ho k h n
        unfold portAccepts at hp
        split at hp <;> simp_all
      · exact host i hi ho hp h
    · cases h; exact .badWord w k n
  · cases h; exact .badWord w k n

/-- What a word on the command port can do where `RUN` and `RESET` are not accepted. -/
theorem GoesTo.of_guest {s u t v : State} (w : OpWord) (k : SameButTape s u) (hu : u.phase ≠ .idle)
    (h : u.issue .command w = .next t) (n : SameButNotes t v) : GoesTo s v := by
  refine .of_command w k h n ?_
  intro i _ ho hp
  unfold portAccepts at hp
  split at hp <;> simp_all

/-- What a word on the CPU port can do. -/
theorem GoesTo.of_cpu {s t v : State} {c : CoreId} {opcode : Word} {cs : List CoreId} (w : OpWord)
    (ph : s.phase = .inStep c opcode cs) (h : s.issue .cpu w = .next t) (n : SameButNotes t v) : GoesTo s v := by
  unfold State.issue at h
  split at h
  · rename_i i hi
    split at h
    · rename_i hp
      rw [ph] at hp
      simp only [portAccepts, Bool.and_eq_true, decide_eq_true_eq] at hp
      exact .cpuWord i hp.1 ph hp.2 h n
    · cases h; exact .badWord w (.refl s) n
  · cases h; exact .badWord w (.refl s) n

/-- Everything a step that answers a next state can have done. -/
theorem step_goesTo {s t : State} (h : step s = .next t) : GoesTo s t := by
  unfold step State.transition at h
  split at h
  · rename_i hp
    cases h; exact .waiting hp
  · rename_i hp
    unfold State.hostStep at h
    split at h
    · cases h; exact .silent
    · rename_i w rest hw
      have k : SameButTape s { s with hostIn := rest } := ⟨_, rfl⟩
      refine .of_command w k h (.refl t) ?_
      intro i hi ho _ hx
      cases i <;> simp [Instr.hostOnly] at ho
      · cases hx; exact .hostRun hp k
      · cases hx
        rw [eq_opWord_reset hi] at hw
        exact .hostReset hp hw
  · rename_i hp
    unfold State.loopStep at h
    split at h
    · cases h; exact .again hp ‹_›
    · rename_i hr; cases h; exact .yields hp (by simpa using hr)
  · rename_i hp
    unfold State.passStep at h
    split at h
    · cases h
    · rename_i e q hq
      split at h
      · cases h; exact .newPass hp hq ‹_›
      · cases h; exact .jump hp hq (BitVec.not_lt.1 ‹_›)
  · rename_i rest hp
    unfold State.visitStep at h
    split at h
    · unfold State.advanceClock at h
      split at h
      · cases h
      · cases h; exact .advance hp ‹_›
    · split at h
      · cases h; exact .begin hp ‹_›
      · rename_i hl; cases h; exact .skip hp (by simpa using hl)
  · rename_i c opcode cs hp
    unfold State.executorStep at h
    split at h
    · obtain ⟨u, hu, n⟩ := State.issueInStep_eq_next h
      exact .of_cpu _ hp hu n
    · obtain ⟨u, hu, n⟩ := State.issueInStep_eq_next h
      exact .of_guest _ (.refl s) (by simp [hp]) hu n
    · cases h; exact .reads _ _ hp (.noted _ _ _)
    · rename_i ha; cases h; exact .writes _ _ _ hp ha (.noted _ _ _)
    · unfold State.returnCost at h
      split at h
      · cases h; exact .returns _ hp ‹_›
      · cases h
    · unfold State.returnUnrecognizedIfClean at h
      split at h
      · cases h
      · rename_i hu; cases h; exact .unrecognized hp (by simpa using hu)
  · rename_i hp
    unfold State.eventStep at h
    split at h
    · cases h; exact .eventsDone hp
    · rename_i e q hq
      split at h
      · exact .event hp hq ‹_› h
      · cases h; exact .eventsDone hp
  · rename_i task hp
    unfold State.callbackStep at h
    split at h
    · obtain ⟨u, hu, rfl⟩ := onNext_eq_next h
      exact .of_guest _ (.refl s) (by simp [hp]) hu (.heard _ _)
    · cases h; exact .callbackReads _ _ hp (.heard _ _)
    · rename_i ha; cases h; exact .callbackWrites _ _ _ hp ha (.heard _ _)
    · cases h; exact .callbackDone hp

end Sys2Proof.Machine
end

