-- ==== Sys2Proof/Tests/Slice0.lean ====
section
/-! SUPPORT. Tests.  Every expected value is one of `95_test_vectors.md` (its number stands in the comment) or worked by
hand from the rule named; the last part shows, for every obligation with hypotheses, values that meet them. -/

namespace Sys2Proof.Tests

open Sys2Proof Sys2Proof.Machine

/-! ## Helpers -/

/-- The state an operation leads to (the reset state if it leads to none). -/
def after (i : Instr) (s : State) : State :=
  match exec i s with
  | .next t => t
  | _ => State.reset

/-- The state a step leads to (the reset state if it leads to none). -/
def stepped (s : State) : State :=
  match step s with
  | .next t => t
  | _ => State.reset

/-- The reset state with the horizon 1000 of most vectors. -/
def base : State := State.resetWith { Params.default with rebaseHorizon := 1000#64 } []

/-- A state with the context of one core changed. -/
def on (s : State) (c : CoreId) (f : CpuContext → CpuContext) : State := s.setCore c (f (s.core c))

/-- A state with the interrupt state of one symmetric core changed. -/
def onSym (s : State) (c : SymId) (f : SymIrq → SymIrq) : State := s.setSymIrq c (f (s.symIrq c))

/-- Core `c` in a step, its status and `pc` given. -/
def running (c : CoreId) (status pc : Word) : State :=
  { on base c (fun k => { k with status := status, pc := pc }) with phase := .inStep c 0#32 [] }

/-- The state in which the executor of core `c`, in its step of the opcode 0, does the given thing next. -/
def doing (c : CoreId) (a : ExecAction) (s : State) : State :=
  { s with phase := .inStep c 0#32 [], params := { s.params with executor := [⟨c, 0#32, s.answers, a⟩] } }

/-- The state in which the callback of a peripheral task does the given thing next. -/
def calling (task : TaskId) (a : CallbackAction) (s : State) : State :=
  { s with phase := .callback task, params := { s.params with registry := [⟨task, s.answers, a⟩] } }

/-- The queue as pairs. -/
def pairs (s : State) : List (Nat × Nat) := s.queue.map fun e => (e.task.toNat, e.due.toNat)

/-- A queue from pairs. -/
def queueOf (l : List (Nat × Nat)) : List Event := l.map fun e => ⟨BitVec.ofNat 8 e.1, BitVec.ofNat 64 e.2⟩

/-- Core `c` with the line asserted by type 40, as vector IC3a has it. -/
def asserted (c : SymId) : State :=
  { onSym base c (fun k => { k with localEnable := true, pend := 1#128 <<< 40, enab := 1#128 <<< 40 }) with
    distEnable := true
    guard := base.guard.set (symCore c) true }

/-! ## Well-formedness: an ill-formed term for each check -/

theorem test_wf_refuses_own_task : (Instr.tPeripheral 7#8).wf = false := by decide
theorem test_wf_takes_peripheral_task : (Instr.tPeripheral 8#8).wf = true := by decide
theorem test_params_wf : Params.default.wf = true := by decide
theorem test_params_wf_refuses_zero_horizon : { Params.default with rebaseHorizon := 0#64 }.wf = false := by decide
theorem test_params_wf_refuses_long_horizon :
    { Params.default with rebaseHorizon := 0x8000000000000000#64 }.wf = false := by decide
theorem test_params_wf_refuses_latency_of_horizon :
    { Params.default with rebaseHorizon := 5#64, irqLatency := 5#64 }.wf = false := by decide
theorem test_params_wf_refuses_few_tasks : { Params.default with nTasks := 7 }.wf = false := by decide
theorem test_params_wf_refuses_many_tasks : { Params.default with nTasks := 257 }.wf = false := by decide
theorem test_params_wf_refuses_boot_pc :
    { Params.default with bootPc := #v[0#32, 0#32, 2#32, 0#32, 0#32] }.wf = false := by decide

/-! ## Decoding: the words of `95_test_vectors.md` section 2.1, and the TaskIds of R93 -/

/-- `SCHEDULE task=8, delay=10`. -/
theorem test_decode_schedule : decode (.op 0x01080000000000000000000A#96) = .ok (.schedule 8#8 10#64) := by decide
/-- `SEND_IRQ target=5, type=88`. -/
theorem test_decode_send_irq : decode (.op 0x020500580000000000000000#96) = .ok (.sendIrqBroadcast 88#16) := by decide
/-- `HALT core=4, reason=0`. -/
theorem test_decode_halt : decode (.op 0x030400000000000000000000#96) = .ok (.halt 4#8 0#8) := by decide
/-- `UNHALT core=0, reason=2`. -/
theorem test_decode_unhalt : decode (.op 0x040000020000000000000000#96) = .ok (.unhalt 0#8 2#8) := by decide
/-- `SGI core=2, type=3, mask=0, mode=2`. -/
theorem test_decode_sgi : decode (.op 0x050200000000000002000003#96) = .ok (.sgi 2#8 3#10 0#4 2#2) := by decide
/-- `MGMT_ENABLE_WRITE value=0x208`. -/
theorem test_decode_mgmt_enable_write : decode (.op 0x060000000000000000000208#96) = .ok (.mgmtEnableWrite 0x208#32) := by decide
/-- `MGMT_PEND_CLEAR mask=0x8`. -/
theorem test_decode_mgmt_pend_clear : decode (.op 0x070000000000000000000008#96) = .ok (.mgmtPendClear 8#32) := by decide
/-- `MGMT_PEND_READ`. -/
theorem test_decode_mgmt_pend_read : decode (.op 0x080000000000000000000000#96) = .ok (.mgmtPendRead) := by decide
/-- `MGMT_ENABLE_READ`. -/
theorem test_decode_mgmt_enable_read : decode (.op 0x090000000000000000000000#96) = .ok (.mgmtEnableRead) := by decide
/-- `DIST_ENABLE_WRITE value=1`. -/
theorem test_decode_dist_enable_write : decode (.op 0x0A0000000000000000000001#96) = .ok (.distEnableWrite 1#1) := by decide
/-- `LOCAL_ENABLE_WRITE core=1, value=1`. -/
theorem test_decode_local_enable_write : decode (.op 0x0B0100000000000000000001#96) = .ok (.localEnableWrite 1#8 1#1) := by decide
/-- `IRQ_ENABLE_SET core=1, type=40`. -/
theorem test_decode_irq_enable_set : decode (.op 0x0C0100280000000000000000#96) = .ok (.irqEnableSet 1#8 40#16) := by decide
/-- `IRQ_ENABLE_CLEAR core=1, type=40`. -/
theorem test_decode_irq_enable_clear : decode (.op 0x0D0100280000000000000000#96) = .ok (.irqEnableClear 1#8 40#16) := by decide
/-- `ROUTE_WRITE type=40, mask=0b0010`. -/
theorem test_decode_route_write : decode (.op 0x0E0000280000000000000002#96) = .ok (.routeWrite 40#16 2#4) := by decide
/-- `IRQ_ACK core=2`. -/
theorem test_decode_irq_ack : decode (.op 0x0F0200000000000000000000#96) = .ok (.irqAck 2#8) := by decide
/-- `IRQ_EOI core=2, type=40`. -/
theorem test_decode_irq_eoi : decode (.op 0x100200280000000000000000#96) = .ok (.irqEoi 2#8 40#16) := by decide
/-- `XCORE_START core=2`. -/
theorem test_decode_xcore_start : decode (.op 0x110200000000000000000000#96) = .ok (.xcoreStart 2#8) := by decide
/-- `XCORE_SHUTDOWN_REQ core=3`. -/
theorem test_decode_xcore_shutdown_req : decode (.op 0x120300000000000000000000#96) = .ok (.xcoreShutdownReq 3#8) := by decide
/-- `EXC_BASE_WRITE core=4, value=0xFFFF0000`. -/
theorem test_decode_exc_base_write : decode (.op 0x1304000000000000FFFF0000#96) = .ok (.excBaseWrite 4#8 0xFFFF0000#32) := by decide
/-- `PERF_MODE_WRITE value=3`. -/
theorem test_decode_perf_mode_write : decode (.op 0x140000000000000000000003#96) = .ok (.perfModeWrite 3#32) := by decide
/-- `READ_CYCLE`. -/
theorem test_decode_read_cycle : decode (.op 0x150000000000000000000000#96) = .ok (.readCycle) := by decide
/-- `RUN`. -/
theorem test_decode_run : decode (.op 0x160000000000000000000000#96) = .ok (.run) := by decide
/-- `RESET`. -/
theorem test_decode_reset : decode (.op 0x170000000000000000000000#96) = .ok (.reset) := by decide
/-- `REG_READ core=0, index=14`. -/
theorem test_decode_reg_read : decode (.op 0x4000000E0000000000000000#96) = .ok (.regRead 0#8 14#4) := by decide
/-- `REG_WRITE core=0, index=13, value=0x100`. -/
theorem test_decode_reg_write : decode (.op 0x4100000D0000000000000100#96) = .ok (.regWrite 0#8 13#4 0x100#32) := by decide
/-- `PC_WRITE core=1, target=0x2000`. -/
theorem test_decode_pc_write : decode (.op 0x420100000000000000002000#96) = .ok (.pcWrite 1#8 0x2000#32) := by decide
/-- `STATUS_READ core=4`. -/
theorem test_decode_status_read : decode (.op 0x430400000000000000000000#96) = .ok (.statusRead 4#8) := by decide
/-- `STATUS_WRITE core=0, value=0x1F`. -/
theorem test_decode_status_write : decode (.op 0x44000000000000000000001F#96) = .ok (.statusWrite 0#8 0x1F#32) := by decide
/-- `SAVED_STATUS_READ core=0`. -/
theorem test_decode_saved_status_read : decode (.op 0x450000000000000000000000#96) = .ok (.savedStatusRead 0#8) := by decide
/-- `SAVED_STATUS_WRITE core=0, value=0x10`. -/
theorem test_decode_saved_status_write : decode (.op 0x460000000000000000000010#96) = .ok (.savedStatusWrite 0#8 0x10#32) := by decide
/-- `BANK_REG_READ core=0, index=13, mode=0x10`. -/
theorem test_decode_bank_reg_read : decode (.op 0x4700100D0000000000000000#96) = .ok (.bankRegRead 0#8 13#4 0x10#5) := by decide
/-- `BANK_REG_WRITE core=0, index=14, mode=0x1F, value=0x40`. -/
theorem test_decode_bank_reg_write : decode (.op 0x48001F0E0000000000000040#96) = .ok (.bankRegWrite 0#8 14#4 0x1F#5 0x40#32) := by decide
/-- `TRAP core=0, exc=2, back=4`. -/
theorem test_decode_trap : decode (.op 0x490000020000000000000004#96) = .ok (.trap 0#8 2#3 4#32) := by decide
/-- `EXC_RETURN core=4, target=0x110`. -/
theorem test_decode_exc_return : decode (.op 0x4A0400000000000000000110#96) = .ok (.excReturn 4#8 0x110#32) := by decide
/-- `WAIT_IRQ core=1`. -/
theorem test_decode_wait_irq : decode (.op 0x4B0100000000000000000000#96) = .ok (.waitIrq 1#8) := by decide
theorem test_decode_task0 : decode (.task 0#8) = .ok .tRebase := by decide
theorem test_decode_task1 : decode (.task 1#8) = .ok .tEndFrame := by decide
theorem test_decode_task2 : decode (.task 2#8) = .ok .tCoreConfig := by decide
theorem test_decode_task3 : decode (.task 3#8) = .ok .tIrqDeliver0 := by decide
theorem test_decode_task4 : decode (.task 4#8) = .ok .tIrqDeliver1 := by decide
theorem test_decode_task5 : decode (.task 5#8) = .ok .tIrqDeliver2 := by decide
theorem test_decode_task6 : decode (.task 6#8) = .ok .tIrqDeliver3 := by decide
theorem test_decode_task7 : decode (.task 7#8) = .ok .tIrqDeliver4 := by decide
theorem test_decode_task8 : decode (.task 8#8) = .ok (.tPeripheral 8#8) := by decide
theorem test_decode_task255 : decode (.task 255#8) = .ok (.tPeripheral 255#8) := by decide

/-- Vector W1. -/
theorem test_decode_refuses_w1 : decode (.op 0x000000000000000000000000#96) = .error .illegalOpCode := by decide
/-- Vector W2. -/
theorem test_decode_refuses_w2 : decode (.op 0x180000000000000000000000#96) = .error .illegalOpCode := by decide
/-- Vector W3. -/
theorem test_decode_refuses_w3 : decode (.op 0x4C0000000000000000000000#96) = .error .illegalOpCode := by decide
/-- Vector W4. -/
theorem test_decode_refuses_w4 : decode (.op 0x020400030000000000000001#96) = .error .reservedBit := by decide
/-- Vector W5. -/
theorem test_decode_refuses_w5 : decode (.op 0x010800010000000000000005#96) = .error .reservedBit := by decide
/-- Vector W6. -/
theorem test_decode_refuses_w6 : decode (.op 0x050100000000000004000005#96) = .error .reservedBit := by decide
/-- Vector W7. -/
theorem test_decode_refuses_w7 : decode (.op 0x160100000000000000000000#96) = .error .reservedBit := by decide

/-- R106: the text of an operation. -/
theorem test_text : (Instr.schedule 8#8 10#64).text = "SCHEDULE task=8, delay=10" := by decide

/-! ## Rejected operands: section 2.1, the words W8 to W25 -/

/-- The error bits of an operation issued at a state. -/
def errs (i : Instr) (s : State) : Nat := (after i s).errFlags.toNat

theorem test_rejects_w8 : errs (.schedule 3#8 5#64) base = 2 := by decide
theorem test_rejects_w9 : errs (.schedule 16#8 1#64) base = 2 := by decide
theorem test_rejects_w10 : errs (.sendIrq 6#8 0#16) base = 4 := by decide
theorem test_rejects_w11 : errs (.halt 5#8 0#8) base = 4 := by decide
theorem test_rejects_w12 : errs (.sgi 4#8 1#10 1#4 0#2) base = 4 := by decide
theorem test_rejects_w13 : errs (.xcoreStart 1#8) base = 4 := by decide
theorem test_rejects_w15 : errs (.localEnableWrite 4#8 1#1) base = 4 := by decide
theorem test_rejects_w16 : errs (.sendIrq 4#8 32#16) base = 8 := by decide
theorem test_rejects_w17 : errs (.sendIrq 0#8 128#16) base = 8 := by decide
theorem test_rejects_w18 : errs (.sgi 1#8 16#10 1#4 0#2) base = 8 := by decide
theorem test_rejects_w20 : errs (.sgi 1#8 5#10 0#4 3#2) base = 16 := by decide
theorem test_rejects_w21 : errs (.halt 0#8 8#8) base = 32 := by decide
theorem test_rejects_w22 : errs (.schedule 8#8 0xFFFFFFFFFFFFFFF6#64) { base with now := 10#64 } = 128 := by decide
theorem test_rejects_w23 : errs (.statusWrite 0#8 0xC0#32) base = 256 := by decide
theorem test_rejects_w24 : errs (.bankRegRead 0#8 13#4 0x14#5) base = 256 := by decide
theorem test_rejects_w25 : errs (.trap 0#8 5#3 4#32) base = 512 := by decide
theorem test_rejects_w26 : errs (.savedStatusRead 0#8) (running 0 0x10#32 4#32) = 1024 := by decide

/-- The order of checks (R215): core before type before mode. -/
theorem test_rejects_first_check : errs (.sgi 4#8 16#10 0#4 3#2) base = 4 := by decide

/-! ## One or two small tests for each operation -/

/-- Q1, its fourth command: behind the events of the same due cycle, no de-duplication. -/
theorem test_schedule :
    pairs (after (.schedule 8#8 5#64) { base with queue := queueOf [(9, 5), (10, 5), (8, 10), (0, 1000)] })
      = [(9, 5), (10, 5), (8, 5), (8, 10), (0, 1000)] := by decide
/-- Q3: the largest due cycle. -/
theorem test_schedule_latest :
    pairs (after (.schedule 8#8 0xFFFFFFFFFFFFFFF5#64) { base with now := 10#64 })
      = [(0, 1000), (8, 18446744073709551615)] := by decide
/-- IC1, its first command. -/
theorem test_send_irq :
    let s := after (.sendIrq 1#8 40#16) { base with now := 100#64, route := base.route.set 40 3#4 }
    ((s.symIrq 1).pend = 1#128 <<< 40 ∧ s.guard[1] = true ∧ pairs s = [(4, 101), (0, 1000)]) := by decide
/-- IC1, its third command: a broadcast with one delivery in flight. -/
theorem test_send_irq_broadcast :
    let s := after (.sendIrqBroadcast 40#16)
      { base with now := 100#64, route := base.route.set 40 3#4, guard := base.guard.set 1 true,
                  queue := queueOf [(4, 101), (0, 1000)] }
    ((s.symIrq 0).pend = 1#128 <<< 40 ∧ (s.symIrq 2).pend = 0#128 ∧ pairs s = [(4, 101), (3, 101), (0, 1000)]) := by decide
/-- IC18, with `HALT`: the other extra core is still started. -/
theorem test_halt :
    let s := after (.halt 3#8 0#8)
      { base with extra := #v[⟨true, true, false⟩, ⟨true, true, true⟩], fourCore := true }
    (s.extra[1] = ⟨false, false, false⟩ ∧ s.extra[0].started = true ∧ pairs s = [(0, 1000)] ∧ s.fourCore = true) := by decide
/-- IC17, its last halt. -/
theorem test_wait_irq_cluster_idle :
    let s := after (.waitIrq 1#8)
      { on base 0 (fun k => { k with halted := 1#8 }) with now := 9#64, perfCfg := 3#32, route := base.route.set 88 1#4 }
    (s.perfEff = 3#32 ∧ s.out.head? = some (.memcfgUpdate 3#32) ∧ (s.symIrq 0).pend = 1#128 <<< 88
      ∧ pairs s = [(3, 10), (0, 1000)]) := by decide
/-- M16. -/
theorem test_wait_irq :
    ((after (.waitIrq 1#8) (running 1 0xD3#32 8#32)).core 1).halted = 1#8 := by decide
/-- IC15. -/
theorem test_unhalt :
    ((after (.unhalt 0#8 2#8) (on base 0 fun k => { k with halted := 5#8 })).core 0).halted = 1#8 := by decide
/-- IC6. -/
theorem test_sgi_others :
    let s := after (.sgiOthers 1#8 5#10) { base with now := 10#64 }
    ((s.symIrq 0).pend = 32#128 ∧ (s.symIrq 1).pend = 0#128 ∧ (s.symIrq 3).src[5] = 1#2
      ∧ pairs s = [(3, 11), (5, 11), (6, 11), (0, 1000)]) := by decide
/-- IC8. -/
theorem test_sgi_mask :
    let s := after (.sgiMask 0#8 2#10 5#4) base
    ((s.symIrq 0).pend = 4#128 ∧ (s.symIrq 1).pend = 0#128 ∧ (s.symIrq 2).pend = 4#128 ∧ (s.symIrq 2).src[2] = 0#2) := by decide
/-- IC13. -/
theorem test_mgmt_enable_write :
    let s := after (.mgmtEnableWrite 8#32) { base with now := 30#64, mgmtPending := 8#32 }
    (s.mgmtEnable = 8#32 ∧ s.guard[4] = true ∧ pairs s = [(7, 31), (0, 1000)]) := by decide
/-- IC14. -/
theorem test_mgmt_pend_clear :
    (after (.mgmtPendClear 8#32) { base with mgmtPending := 0x208#32 }).mgmtPending = 0x200#32 := by decide
/-- IC14. -/
theorem test_mgmt_pend_read :
    (after .mgmtPendRead { base with mgmtPending := 0x200#32 }).resp = 0x200#64 := by decide
/-- R220. -/
theorem test_mgmt_enable_read :
    (after .mgmtEnableRead { base with mgmtEnable := 0xF0000001#32 }).resp = 0xF0000001#64 := by decide
/-- R221: opening the global gate asks for the delivery of every core whose line rises. -/
theorem test_dist_enable_write :
    let s := after (.distEnableWrite 1#1) { asserted 2 with distEnable := false, guard := base.guard }
    (s.distEnable = true ∧ pairs s = [(5, 1), (0, 1000)]) := by decide
/-- R222. -/
theorem test_local_enable_write :
    let s := after (.localEnableWrite 1#8 1#1) (onSym { asserted 1 with guard := base.guard } 1 fun k => { k with localEnable := false })
    ((s.symIrq 1).localEnable = true ∧ pairs s = [(4, 1), (0, 1000)]) := by decide
/-- IC3d, its second half. -/
theorem test_irq_enable_set :
    let s := after (.irqEnableSet 1#8 40#16)
      { onSym { asserted 1 with guard := base.guard } 1 (fun k => { k with enab := 0#128 }) with now := 5#64 }
    ((s.symIrq 1).enab = 1#128 <<< 40 ∧ s.guard[1] = true ∧ pairs s = [(4, 6), (0, 1000)]) := by decide
/-- R224. -/
theorem test_irq_enable_clear :
    let s := after (.irqEnableClear 1#8 40#16) (asserted 1)
    ((s.symIrq 1).enab = 0#128 ∧ (s.symIrq 1).pend = 1#128 <<< 40 ∧ pairs s = [(0, 1000)]) := by decide
/-- IC22. -/
theorem test_route_write :
    (after (.routeWrite 7#16 1#4) { base with route := base.route.set 7 4#4 }).route[7] = 1#4 := by decide
/-- IC10, the first acknowledge. -/
theorem test_irq_ack :
    let s := after (.irqAck 2#8) { onSym base 2 (fun k => { k with
        localEnable := true, pend := withBit (withBit 0#128 5) 40, enab := withBit (withBit 0#128 5) 40,
        src := k.src.set 5 1#2 }) with distEnable := true }
    (s.resp = 0x405#64 ∧ (s.symIrq 2).pend = 1#128 <<< 40 ∧ (s.symIrq 2).active = 32#128) := by decide
/-- IC11. -/
theorem test_irq_ack_closed :
    let s := after (.irqAck 2#8) { asserted 2 with distEnable := false }
    (s.resp = 1023#64 ∧ (s.symIrq 2).pend = 1#128 <<< 40) := by decide
/-- IC12. -/
theorem test_irq_eoi :
    let s := after (.irqEoi 2#8 41#16) { onSym (asserted 2) 2 (fun k => { k with active := 3#128 <<< 40 }) with guard := base.guard }
    ((s.symIrq 2).active = 1#128 <<< 40 ∧ pairs s = [(5, 1), (0, 1000)]) := by decide
/-- R230. -/
theorem test_xcore_start :
    let s := after (.xcoreStart 2#8) base
    (s.extra[0] = ⟨true, false, false⟩ ∧ s.extra[1].started = false ∧ pairs s = [(2, 0), (0, 1000)]) := by decide
/-- R231. -/
theorem test_xcore_shutdown_req :
    (after (.xcoreShutdownReq 3#8) { base with extra := base.extra.set 1 ⟨true, true, false⟩ }).extra[1] = ⟨true, true, true⟩ := by decide
/-- IC19. -/
theorem test_xcore_shutdown_req_stopped :
    (after (.xcoreShutdownReq 2#8) base).extra[0] = ⟨false, false, false⟩ := by decide
/-- R257. -/
theorem test_exc_base_write :
    let s := after (.excBaseWrite 4#8 0xFFFF0000#32) base
    ((s.core 4).excBase = 0xFFFF0000#32 ∧ (s.core 4).pc = 4#32 ∧ (s.core 3).excBase = 0#32) := by decide
/-- R232. -/
theorem test_perf_mode_write :
    let s := after (.perfModeWrite 3#32) base; (s.perfCfg = 3#32 ∧ s.perfEff = 0#32) := by decide
/-- Q8. -/
theorem test_read_cycle :
    (after .readCycle { base with now := 42#64 }).resp = 42#64 := by decide
/-- R140. -/
theorem test_run :
    let s := after .run base; (s.running = true ∧ s.phase = .loopTop) := by decide
/-- Z1, for cores 1 and 2. -/
theorem test_reset :
    let s := after .reset { base with params := { base.params with bootPc := #v[0x1000#32, 0x2000#32, 0#32, 0#32, 0x3000#32] }, now := 9#64, mgmtEnable := 1#32 }
    ((s.core 1).pc = 0x2004#32 ∧ (s.core 2).halted = 1#8 ∧ (s.core 1).status = 0xD3#32 ∧ s.mgmtEnable = 0#32
      ∧ pairs s = [(0, 1000)]) := by decide
/-- Z1, the last two fetches. -/
theorem test_reset_fetches :
    (after .reset { base with params := { base.params with bootPc := #v[0x1000#32, 0x2000#32, 0#32, 0#32, 0x3000#32] } }).out.take 2
      = [.memRead 4 0x3004#32 .word 0#32, .memRead 4 0x3000#32 .word 0#32] := by decide
/-- R170: in IRQ mode index 12 names `N[12]`. -/
theorem test_reg_read :
    (after (.regRead 0#8 12#4) (on base 0 fun k => { k with status := 0x92#32, normal := k.normal.set 12 7#32 })).resp = 7#64 := by decide
/-- M2: index 15. -/
theorem test_reg_read_pc :
    (after (.regRead 0#8 15#4) (running 0 0xD3#32 0x1008#32)).resp = 0x1008#64 := by decide
/-- R171: in FIQ mode index 8 names `F[8]`. -/
theorem test_reg_write :
    let k := (after (.regWrite 0#8 8#4 7#32) (running 0 0xD1#32 8#32)).core 0
    (k.fiq[0] = 7#32 ∧ k.normal[8] = 0#32) := by decide
/-- R171: in FIQ mode index 14 names `F[14]`. -/
theorem test_reg_write_link :
    ((after (.regWrite 0#8 14#4 9#32) (running 0 0xD1#32 8#32)).core 0).fiq[6] = 9#32 := by decide
/-- EG9. -/
theorem test_pc_write :
    let s := after (.pcWrite 0#8 0x102#32) (running 0 0xD3#32 8#32)
    ((s.core 0).pc = 0x104#32 ∧ s.out.take 2 = [.memRead 0 0x104#32 .word 0#32, .memRead 0 0x100#32 .word 0#32]) := by decide
/-- EG12: wrap-around in the compact encoding. -/
theorem test_pc_write_wraps :
    let s := after (.pcWrite 0#8 0xFFFFFFFE#32) (running 0 0x30#32 8#32)
    ((s.core 0).pc = 0#32 ∧ s.out.take 2 = [.memRead 0 0#32 .half 0#32, .memRead 0 0xFFFFFFFE#32 .half 0#32]) := by decide
/-- R173. -/
theorem test_status_read :
    (after (.statusRead 4#8) base).resp = 0xD3#64 := by decide
/-- M7: to the compact encoding. -/
theorem test_status_write :
    let s := after (.statusWrite 0#8 0x30#32) (running 0 0x10#32 0x1014#32)
    ((s.core 0).status = 0x30#32 ∧ (s.core 0).pc = 0x1012#32
      ∧ s.out.take 2 = [.memRead 0 0x1012#32 .half 0#32, .memRead 0 0x1010#32 .half 0#32]) := by decide
/-- M4: no switch, no flush. -/
theorem test_status_write_no_switch :
    let s := after (.statusWrite 0#8 0x53#32) (running 0 0xD3#32 0x208#32)
    ((s.core 0).status = 0x53#32 ∧ (s.core 0).pc = 0x208#32 ∧ s.out = base.out) := by decide
/-- R177. -/
theorem test_saved_status_read :
    (after (.savedStatusRead 0#8) (on base 0 fun k => { k with status := 0x92#32, savedIrq := 0x10#32 })).resp = 0x10#64 := by decide
/-- M9, its first word. -/
theorem test_saved_status_write :
    ((after (.savedStatusWrite 0#8 0x10#32) (running 0 0x13#32 8#32)).core 0).savedSvc = 0x10#32 := by decide
/-- M1: another bank's register. -/
theorem test_bank_reg_read :
    (after (.bankRegRead 0#8 13#4 0x13#5) (on base 0 fun k => { k with status := 0xD1#32, svc := #v[0x100#32, 0#32], fiq := k.fiq.set 5 0x200#32 })).resp = 0x100#64 := by decide
/-- M15. -/
theorem test_bank_reg_write :
    let k := (after (.bankRegWrite 0#8 14#4 0x1F#5 0x40#32) (running 0 0x92#32 8#32)).core 0
    (k.normal[14] = 0x40#32 ∧ k.irq[1] = 0#32) := by decide
/-- M12. -/
theorem test_trap :
    let k := (after (.trap 0#8 2#3 4#32) (running 0 0x10#32 0x1008#32)).core 0
    (k.svc[1] = 0x1004#32 ∧ k.savedSvc = 0x10#32 ∧ k.status = 0x93#32 ∧ k.pc = 0xC#32) := by decide
/-- M13: from the compact encoding. -/
theorem test_trap_compact :
    let k := (after (.trap 0#8 2#3 4#32) (running 0 0x30#32 0x1016#32)).core 0
    (k.svc[1] = 0x1014#32 ∧ k.savedSvc = 0x30#32 ∧ k.status = 0x93#32 ∧ k.pc = 0xC#32) := by decide
/-- M10. -/
theorem test_exc_return :
    let s := after (.excReturn 0#8 0x1014#32) (on base 0 fun k => { k with status := 0x92#32, savedIrq := 0x30#32, irq := #v[0#32, 0x1018#32] })
    ((s.core 0).status = 0x30#32 ∧ (s.core 0).pc = 0x1016#32 ∧ (s.core 0).irq[1] = 0x1018#32 ∧ (s.core 0).savedIrq = 0x30#32) := by decide
/-- IC20: the line is still asserted, so the return asks for a delivery. -/
theorem test_exc_return_irq_check :
    pairs (after (.excReturn 4#8 0#32) { on base 4 (fun k => { k with status := 0x92#32, savedIrq := 0x13#32 }) with now := 40#64, mgmtPending := 8#32, mgmtEnable := 8#32 })
      = [(7, 41), (0, 1000)] := by decide
/-- Q7. -/
theorem test_t_rebase :
    let s := after .tRebase { on (on base 0 fun k => { k with readyAt := 1003#64 }) 4 (fun k => { k with readyAt := 990#64 }) with
      now := 1000#64, queue := queueOf [(8, 1000), (9, 1500)] }
    (s.now = 0#64 ∧ pairs s = [(8, 0), (9, 500), (0, 1000)] ∧ (s.core 0).readyAt = 3#64 ∧ (s.core 4).readyAt = 0#64) := by decide
/-- R129. -/
theorem test_t_rebase_strobe :
    (after .tRebase { base with now := 1000#64, queue := [] }).out.head? = some (.rebaseStrobe 1000#64) := by decide
/-- R157. -/
theorem test_t_end_frame :
    (after .tEndFrame { base with running := true }).running = false := by decide
/-- EG13. -/
theorem test_t_core_config :
    (after .tCoreConfig { base with extra := base.extra.set 0 ⟨true, false, false⟩ }).fourCore = true := by decide
/-- IC4. -/
theorem test_t_irq_deliver0 :
    let k := (after .tIrqDeliver0 (on (asserted 0) 0 fun k => { k with halted := 5#8, status := 0x13#32 })).core 0
    (k.halted = 4#8 ∧ k.status = 0x92#32 ∧ k.pc = 0x1C#32) := by decide
/-- IC3a: woken, but I is 1. -/
theorem test_t_irq_deliver1_masked :
    let s := after .tIrqDeliver1 (on (asserted 1) 1 fun k => { k with halted := 1#8, status := 0x93#32 })
    (s.guard[1] = false ∧ (s.core 1).halted = 0#8 ∧ (s.core 1).status = 0x93#32 ∧ (s.core 1).pc = 4#32) := by decide
/-- X2 and Scenario B. -/
theorem test_t_irq_deliver1 :
    let k := (after .tIrqDeliver1 (on (asserted 1) 1 fun k => { k with halted := 1#8, status := 0x13#32, pc := 0x2004#32, excBase := 0xFFFF0000#32 })).core 1
    (k.irq[1] = 0x2004#32 ∧ k.savedIrq = 0x13#32 ∧ k.status = 0x92#32 ∧ k.pc = 0xFFFF001C#32) := by decide
/-- X1: an extra core, started, from the compact encoding. -/
theorem test_t_irq_deliver2 :
    let s := after .tIrqDeliver2 { on (asserted 2) 2 (fun k => { k with status := 0x30#32, pc := 0x3004#32, excBase := 0xFFFF0000#32 }) with extra := base.extra.set 0 ⟨true, false, false⟩ }
    ((s.core 2).irq[1] = 0x3006#32 ∧ (s.core 2).savedIrq = 0x30#32 ∧ (s.core 2).status = 0x92#32 ∧ s.extra[0].xrunning = true) := by decide
/-- IC5: withheld. -/
theorem test_t_irq_deliver3 :
    let s := after .tIrqDeliver3 (asserted 3)
    (s.guard[3] = false ∧ s.extra[1].xrunning = false ∧ (s.core 3).halted = 1#8 ∧ (s.symIrq 3).pend = 1#128 <<< 40) := by decide
/-- Scenario C, step 3. -/
theorem test_t_irq_deliver4 :
    let s := after .tIrqDeliver4 { on base 4 (fun k => { k with halted := 1#8, status := 0x13#32 }) with mgmtPending := 0x208#32, mgmtEnable := 0x208#32 }
    ((s.core 4).irq[1] = 4#32 ∧ (s.core 4).pc = 0x1C#32 ∧ s.mgmtPending = 0x208#32) := by decide
/-- R126. -/
theorem test_t_peripheral :
    let s := after (.tPeripheral 8#8) { base with phase := .eventPhase }
    (s.phase = .callback 8#8 ∧ s.out.head? = some (.callback 8#8)) := by decide

/-! ## One step of the engine -/

/-- X3: the status and the vector of each type. -/
theorem test_exception_types :
    [Exc.reset, .undefined, .supervisorCall, .prefetchAbort, .dataAbort, .irq, .fiq].map
        (fun x => ((entryStatus 0x10#32 x).toNat, (vecOffset x).toNat))
      = [(0xD3, 0), (0x9B, 4), (0x93, 8), (0x97, 12), (0x97, 16), (0x92, 0x18), (0xD1, 0x1C)] := by decide
/-- X4: the other bits of the status are carried. -/
theorem test_exception_keeps_condition_codes : entryStatus 0xF0000010#32 .irq = 0xF0000092#32 := by decide
/-- X5 and X6: the vector wraps, and is aligned down. -/
theorem test_exception_vector :
    (((on base 0 fun k => { k with excBase := 0xFFFFFFF0#32 }).excEntry 0 .fiq).core 0).pc = 0x10#32
      ∧ (((on base 0 fun k => { k with excBase := 0x102#32 }).excEntry 0 .irq).core 0).pc = 0x11C#32 := by decide
/-- EG1. -/
theorem test_advance_clock :
    (stepped { on (on (on base 0 fun k => { k with readyAt := 13#64 }) 1 fun k => { k with readyAt := 12#64 }) 4
        (fun k => { k with readyAt := 16#64 }) with
      now := 10#64, queue := queueOf [(8, 15), (0, 1000)], phase := .visit [] }).now = 12#64 := by decide
/-- EG2: every counted core is halted. -/
theorem test_advance_clock_idle :
    (stepped { on (on (on base 0 fun k => { k with halted := 1#8 }) 1 fun k => { k with halted := 1#8 }) 4
        (fun k => { k with halted := 1#8 }) with
      now := 7#64, queue := queueOf [(8, 100), (0, 1000)], phase := .visit [] }).now = 100#64 := by decide
/-- EG8: the pipeline advance, with the words 0x11223344 and 0x55667788 in memory. -/
theorem test_turn_of_a_core :
    let s := stepped { on base 0 (fun k => { k with pipe0 := 1#32, pipe1 := 2#32, pc := 0x1004#32 }) with
      mem := Memory.store [] 0x1008#32 .word 0x55667788#32, phase := .visit [0, 4] }
    ((s.core 0).pc = 0x1008#32 ∧ (s.core 0).pipe0 = 2#32 ∧ (s.core 0).pipe1 = 0x55667788#32
      ∧ s.phase = .inStep 0 1#32 [4]) := by decide
/-- EG4: the management core is charged double. -/
theorem test_charge :
    ((stepped (doing 4 (.done 3#32) { base with now := 10#64 })).core 4).readyAt = 16#64
      ∧ ((stepped (doing 0 (.done 3#32) { base with now := 10#64 })).core 0).readyAt = 13#64 := by decide
/-- EG5. -/
theorem test_unrecognized :
    let s := stepped
      { base with
        phase := .inStep 0 0xFFFFFFFF#32 []
        params := { base.params with executor := [⟨0, 0xFFFFFFFF#32, [], .unrecognized⟩] } }
    ((s.core 0).readyAt = 1#64 ∧ s.errFlags = 0x40#16 ∧ s.errLast = 0xEE00000000000000FFFFFFFF#96) := by decide
/-- R150 (c), U18: `Unrecognized` after a store is outside the contract, and after a read it is inside. -/
theorem test_unrecognized_after_change :
    step (doing 0 .unrecognized (stepped (doing 0 (.memWrite 4#32 .byte 1#32) base))) = .fault .executorUnrecognized
      ∧ (stepped (doing 0 .unrecognized (stepped (doing 0 (.memRead 4#32 .byte) base)))).errFlags = 0x40#16 :=
  ⟨rfl, by decide⟩
/-- R150 (c): `REG_READ` changes nothing, and `WAIT_IRQ` does. -/
theorem test_step_changed :
    (stepped (doing 0 (.cpuWord (opWord (.regRead 0#8 15#4))) base)).stepChanged = false
      ∧ (stepped (doing 0 (.cpuWord (opWord (.waitIrq 0#8))) base)).stepChanged = true := by decide +kernel
/-- R150 (d): after the answer of a read of `pc`, 4 after reset, the executor does what its table says for that answer. -/
theorem test_executor_reads_answers :
    let s := stepped
      { base with
        phase := .inStep 0 0#32 []
        params := { base.params with
          executor :=
            [⟨0, 0#32, [some 8#64], .done 9#32⟩, ⟨0, 0#32, [some 4#64], .done 5#32⟩,
             ⟨0, 0#32, [], .cpuWord (opWord (.regRead 0#8 15#4))⟩] } }
    (s.answers = [some 4#64] ∧ ((stepped s).core 0).readyAt = 5#64) := by decide
/-- R76: a callback's read sees the value of the latest store. -/
theorem test_callback_reads :
    let s := stepped (stepped
      { base with
        phase := .callback 8#8
        params := { base.params with
          registry := [⟨8#8, [none], .memRead 4#32 .word⟩, ⟨8#8, [], .memWrite 4#32 .half 0xABCD#32⟩] } })
    (s.out.head? = some (.externalRead 4#32 .word 0xABCD#32) ∧ s.answers = [some 0xABCD#64, none]
      ∧ (stepped s).phase = .eventPhase) := by decide
/-- R23, R9: a callback the registry says nothing of returns at once; a line for another task is not its own. -/
theorem test_callback_returns :
    (stepped (stepped (State.reset.withFetchWord 8 0x08))).phase = .eventPhase
      ∧ (calling 9#8 (.memRead 4#32 .word) base).callbackAction 8#8 = .ret := by decide
/-- Q10: the event phase goes on after `T_END_FRAME`. -/
theorem test_event_phase :
    let s := stepped { base with now := 7#64, running := true, phase := .eventPhase,
                                 queue := queueOf [(1, 7), (8, 7), (0, 1000)] }
    (s.running = false ∧ s.phase = .eventPhase ∧ pairs s = [(8, 7), (0, 1000)]) := by decide
/-- The machine idles after reset: nothing happens until the host issues a command (R9). -/
theorem test_reset_idles : step State.reset = .next State.reset := rfl
/-- The words of the host are taken in order (R91). -/
theorem test_host_command :
    let s := stepped { base with hostIn := [0x01080000000000000000000A#96, 0x160000000000000000000000#96] }
    (pairs s = [(8, 10), (0, 1000)] ∧ s.hostIn = [0x160000000000000000000000#96]) := by decide
/-- A word read through `withFetchWord` is the next step's operation: one word of each format. -/
theorem test_fetch_word :
    (stepped (State.reset.withFetchWord 96 0x060000000000000000000208)).mgmtEnable = 0x208#32
      ∧ ((stepped (State.reset.withFetchWord 96 0x420100000000000000002000)).core 1).pc = 0x2004#32
      ∧ (stepped (State.reset.withFetchWord 8 0x08)).phase = .callback 8#8 := by decide
/-- The memory is little-endian (R74), and writing zero removes the cell. -/
theorem test_memory :
    Memory.store [] 4#32 .word 0x11223344#32 = [(4, 0x44#8), (5, 0x33#8), (6, 0x22#8), (7, 0x11#8)]
      ∧ Memory.store (Memory.store [] 4#32 .half 0x1122#32) 4#32 .half 0#32 = []
      ∧ Memory.load (Memory.store [] 0xFFFFFFFF#32 .half 0xABCD#32) 0xFFFFFFFF#32 .half = 0xABCD#32 := by decide

/-! ## Values that meet the hypotheses of the obligations -/

/-- The decision that `Host.Outcome` has no instance of: an operation or a step answers a next state. -/
def answersNext (r : Result) : Bool :=
  match r with
  | .next _ => true
  | _ => false

theorem answersNext_after {i : Instr} {s : State} (h : answersNext (exec i s) = true) : exec i s = .next (after i s) := by
  unfold after
  split
  · assumption
  · rename_i hn
    cases hx : exec i s with
    | next t => exact absurd hx (hn t)
    | fault e => rw [hx] at h; cases h
    | refused e => rw [hx] at h; cases h

theorem answersNext_stepped {s : State} (h : answersNext (step s) = true) : step s = .next (stepped s) := by
  unfold stepped
  split
  · assumption
  · rename_i hn
    cases hx : step s with
    | next t => exact absurd hx (hn t)
    | fault e => rw [hx] at h; cases h
    | refused e => rw [hx] at h; cases h

theorem test_witness_DecodeOfEncode :
    (Instr.schedule 255#8 0xFFFFFFFFFFFFFFFF#64).wf = true ∧ (Instr.tPeripheral 255#8).wf = true := by decide

theorem test_witness_EncodeOfDecode :
    decode (.task 255#8) = .ok (.tPeripheral 255#8)
      ∧ decode (.op 0x48FF1F0F00000000FFFFFFFF#96) = .ok (.bankRegWrite 255#8 15#4 31#5 0xFFFFFFFF#32) := by decide

/-- A word of a row with every free bit set, and a word of no row. -/
theorem test_witness_DecoderFollowsOpcodeMap :
    (∃ r ∈ opRows, 0x01FF0000FFFFFFFFFFFFFFFF#96 &&& r.mask = r.pattern)
      ∧ (∀ r ∈ opRows, 0x01FF0001FFFFFFFFFFFFFFFF#96 &&& r.mask ≠ r.pattern) := by decide

theorem test_witness_TaskIdsDecode : 8 ≤ (8#8 : TaskId).toNat ∧ 8 ≤ (255#8 : TaskId).toNat := by decide

/-- The states of the four clauses: the host, an executor's command, an executor's CPU word, a callback. -/
theorem test_witness_StepRunsDecodedWord :
    (base.phase = .idle ∧ { base with hostIn := [opWord .run] }.hostIn = opWord .run :: []
        ∧ decode (.op (opWord .run)) = .ok .run ∧ Instr.run.format = .cmd)
      ∧ ((running 4 0xD3#32 8#32).phase = .inStep 4 0#32 []
        ∧ (doing 4 (.cmdWord (opWord .readCycle)) base).execAction 4 0#32 = .cmdWord (opWord .readCycle)
        ∧ decode (.op (opWord .readCycle)) = .ok .readCycle ∧ Instr.readCycle.format = .cmd
        ∧ Instr.readCycle.hostOnly = false)
      ∧ ((doing 4 (.cpuWord (opWord (.waitIrq 4#8))) base).execAction 4 0#32 = .cpuWord (opWord (.waitIrq 4#8))
        ∧ decode (.op (opWord (.waitIrq 4#8))) = .ok (.waitIrq 4#8) ∧ (Instr.waitIrq 4#8).format = .cpu
        ∧ (fieldA (opWord (.waitIrq 4#8))).toNat = (4 : CoreId).val)
      ∧ ((calling 8#8 (.cmdWord (opWord .readCycle)) base).phase = .callback 8#8
        ∧ (calling 8#8 (.cmdWord (opWord .readCycle)) base).callbackAction 8#8 = .cmdWord (opWord .readCycle)) := by
  decide

/-- A head that is due, one that is not, and no event. -/
theorem test_witness_StepRunsDueTask :
    (∃ e q, { base with phase := .eventPhase, now := 1000#64 }.queue = e :: q ∧ e.due ≤ 1000#64
        ∧ decode (.task e.task) = .ok .tRebase)
      ∧ (∃ e q, { base with phase := .eventPhase, now := 999#64 }.queue = e :: q ∧ 999#64 < e.due)
      ∧ { base with phase := .eventPhase, queue := [] }.queue = [] :=
  ⟨⟨_, _, rfl, by decide, by decide⟩, ⟨_, _, rfl, by decide⟩, rfl⟩

/-- A word of no row, a CPU word on the command port, a CMD word on the CPU port. -/
theorem test_witness_IllegalWordIsOnlyLogged :
    (∀ r ∈ opRows, 0#96 &&& r.mask ≠ r.pattern)
      ∧ (∃ r ∈ cpuRows, opWord (.waitIrq 0#8) &&& r.mask = r.pattern)
      ∧ (∃ r ∈ cmdRows, opWord .reset &&& r.mask = r.pattern) := by decide

/-- `RUN` and `RESET`, from an executor and from a callback; a CPU word for core 4 in a step of core 0, and words for
the cores 5 and 255, which there are not. -/
theorem test_witness_MisplacedWordIsOnlyLogged :
    decode (.op (opWord .run)) = .ok .run ∧ Instr.run.hostOnly = true
      ∧ decode (.op (opWord .reset)) = .ok .reset ∧ Instr.reset.hostOnly = true
      ∧ (doing 0 (.cmdWord (opWord .run)) base).execAction 0 0#32 = .cmdWord (opWord .run)
      ∧ (calling 8#8 (.cmdWord (opWord .reset)) base).phase = .callback 8#8
      ∧ (calling 8#8 (.cmdWord (opWord .reset)) base).callbackAction 8#8 = .cmdWord (opWord .reset)
      ∧ decode (.op (opWord (.waitIrq 4#8))) = .ok (.waitIrq 4#8)
      ∧ (fieldA (opWord (.waitIrq 4#8))).toNat < 5 ∧ (fieldA (opWord (.waitIrq 4#8))).toNat ≠ (0 : CoreId).val
      ∧ (doing 0 (.cpuWord (opWord (.waitIrq 5#8))) base).execAction 0 0#32 = .cpuWord (opWord (.waitIrq 5#8))
      ∧ decode (.op (opWord (.waitIrq 5#8))) = .ok (.waitIrq 5#8) ∧ (Instr.waitIrq 5#8).format = .cpu
      ∧ 5 ≤ (fieldA (opWord (.waitIrq 5#8))).toNat ∧ 5 ≤ (fieldA (opWord (.waitIrq 255#8))).toNat := by
  decide

/-- One operation for each check, with the operand next to the legal range, and two checks at once. -/
theorem test_witness_IllegalOperandIsOnlyLogged :
    operandError 16 (.schedule 16#8 0#64) = some .badTask ∧ operandError 16 (.schedule 7#8 0#64) = some .badTask
      ∧ operandError 16 (.halt 5#8 0#8) = some .badCore ∧ operandError 16 (.halt 4#8 8#8) = some .badReason
      ∧ operandError 16 (.sendIrq 6#8 0#16) = some .badCore ∧ operandError 16 (.sendIrq 4#8 32#16) = some .badIrqType
      ∧ operandError 16 (.sendIrq 3#8 128#16) = some .badIrqType ∧ operandError 16 (.sgi 3#8 16#10 0#4 3#2) = some .badIrqType
      ∧ operandError 16 (.sgi 3#8 15#10 0#4 3#2) = some .badSgiMode ∧ operandError 16 (.sgi 4#8 16#10 0#4 3#2) = some .badCore
      ∧ operandError 16 (.xcoreStart 1#8) = some .badCore ∧ operandError 16 (.xcoreStart 4#8) = some .badCore
      ∧ operandError 16 (.trap 4#8 5#3 0#32) = some .badExc := by decide

/-- The least overflow; a core, and a mode of each kind, for the other clauses. -/
theorem test_witness_ErrorsOfTheStateAreOnlyLogged :
    (operandError base.params.nTasks (.schedule 8#8 0xFFFFFFFFFFFFFFFF#64) = none
        ∧ 18446744073709551616 ≤ { base with now := 1#64 }.now.toNat + (0xFFFFFFFFFFFFFFFF#64).toNat)
      ∧ coreOf 4#8 = some 4 ∧ modeOf 0xC0#32 ∉ modes ∧ (0x14#5 : BitVec 5) ∉ modes
      ∧ normalMode (modeOf ((running 4 0x10#32 8#32).core 4).status)
      ∧ normalMode (modeOf ((running 4 0x1F#32 8#32).core 4).status)
      ∧ bankOf (modeOf (base.core 4).status) = some (.priv .svc) ∧ modeOf ((base.core 4).saved .svc) ∉ modes := by
  unfold normalMode
  decide

theorem test_witness_ErrorFlagsAreSticky :
    Instr.halt 5#8 0#8 ≠ .reset ∧ exec (.halt 5#8 0#8) base = .next (after (.halt 5#8 0#8) base) ∧ LogOk base :=
  ⟨by decide, rfl, rfl⟩

/-- The ends of the ranges of legal tasks, and the greatest sum. -/
theorem test_witness_ScheduleInsertsUpperBound :
    (∀ t ∈ [1#8, 2#8, 8#8, 15#8], (t : BitVec 8).toNat = 1 ∨ t.toNat = 2 ∨ (8 ≤ t.toNat ∧ t.toNat < base.params.nTasks))
      ∧ { base with now := 1#64 }.now.toNat + (0xFFFFFFFFFFFFFFFE#64).toNat < 18446744073709551616 := by decide

/-- An event that is due now, and one that is not. -/
theorem test_witness_RebaseShiftsTheAxis :
    ∀ e ∈ { base with now := 1000#64, queue := queueOf [(8, 1000), (9, 1500)] }.queue, (1000#64 : Cycle) ≤ e.due := by
  decide

/-- The ends of the range of bound peripheral tasks, the return of a callback, and the least unbound task. -/
theorem test_witness_PeripheralTaskCallsItsCallback :
    (8 ≤ (8#8 : TaskId).toNat ∧ (8#8 : TaskId).toNat < base.params.nTasks)
      ∧ (8 ≤ (15#8 : TaskId).toNat ∧ (15#8 : TaskId).toNat < base.params.nTasks)
      ∧ ((calling 8#8 .ret base).phase = .callback 8#8 ∧ (calling 8#8 .ret base).callbackAction 8#8 = .ret)
      ∧ base.params.nTasks ≤ (16#8 : TaskId).toNat := by decide

/-- The four clauses: running, stopped, a head that is later than now by one cycle, a head that is due. -/
theorem test_witness_EngineLoopTests :
    ({ base with phase := .loopTop, running := true }.running = true)
      ∧ ({ base with phase := .loopTop }.running = false)
      ∧ (∃ e q, { base with phase := .passTop, now := 999#64 }.queue = e :: q ∧ 999#64 < e.due)
      ∧ (∃ e q, { base with phase := .passTop, now := 1000#64 }.queue = e :: q ∧ e.due ≤ 1000#64) :=
  ⟨rfl, rfl, ⟨_, _, rfl, by decide⟩, ⟨_, _, rfl, by decide⟩⟩

/-- An eligible core whose ready-at cycle is now, a halted one, and one that is one cycle early. -/
theorem test_witness_TurnOfACore :
    (({ base with phase := .visit [0] }.core 0).halted = 0#8 ∧ (base.core 0).readyAt ≤ base.now)
      ∧ ({ base with phase := .visit [2] }.core 2).halted ≠ 0#8
      ∧ base.now < ((on base 0 fun k => { k with readyAt := 1#64 }).core 0).readyAt := by decide

theorem test_witness_OnlyEligibleCoresExecute :
    step { base with phase := .visit [0, 1, 4] } = .next (stepped { base with phase := .visit [0, 1, 4] })
      ∧ (stepped { base with phase := .visit [0, 1, 4] }).phase = .inStep 0 (base.core 0).pipe0 [1, 4]
      ∧ ∀ d op ds, { base with phase := .visit [0, 1, 4] }.phase ≠ .inStep d op ds :=
  ⟨rfl, rfl, fun _ _ _ h => by cases h⟩

/-- The least and the greatest cost, an unrecognized opcode before and after a change, and the costs next to the
range. -/
theorem test_witness_StepIsCharged :
    (running 4 0xD3#32 8#32).phase = .inStep 4 0#32 []
      ∧ (1 ≤ (1#32).toNat ∧ (1#32).toNat < 2147483648) ∧ (1 ≤ (0x7FFFFFFF#32).toNat ∧ (0x7FFFFFFF#32).toNat < 2147483648)
      ∧ (doing 4 (.done 1#32) base).execAction 4 0#32 = .done 1#32
      ∧ (doing 4 .unrecognized base).execAction 4 0#32 = .unrecognized ∧ base.stepChanged = false
      ∧ (doing 4 .unrecognized { base with stepChanged := true }).stepChanged = true
      ∧ (0#32).toNat = 0 ∧ 2147483648 ≤ (0x80000000#32).toNat := by decide

/-- A machine in which no address is plain memory for core 4. -/
def windowed : State := State.resetWith { Params.default with windows := [⟨0x10#5, 0#32, 0xFFFFFFFF#32⟩] } []

/-- A store of a word at the top of the address space, and a byte just beyond it; an access in a window. -/
theorem test_witness_ExecutorMemoryAccess :
    (running 4 0xD3#32 8#32).phase = .inStep 4 0#32 [] ∧ MemoryOk (running 4 0xD3#32 8#32)
      ∧ (running 4 0xD3#32 8#32).inWindow 4 0xFFFFFFFE#32 = false
      ∧ (doing 4 (.memRead 0xFFFFFFFE#32 .word) base).execAction 4 0#32 = .memRead 0xFFFFFFFE#32 .word
      ∧ (doing 4 (.memWrite 0xFFFFFFFE#32 .word 1#32) base).execAction 4 0#32 = .memWrite 0xFFFFFFFE#32 .word 1#32
      ∧ Width.word.bytes.toNat ≤ (2#32 - 0xFFFFFFFE#32 : Word).toNat
      ∧ (doing 4 (.memRead 0xFFFFFFFF#32 .word) windowed).inWindow 4 0xFFFFFFFF#32 = true
      ∧ (doing 4 (.memRead 0xFFFFFFFF#32 .word) windowed).execAction 4 0#32 = .memRead 0xFFFFFFFF#32 .word
      ∧ (doing 4 (.memWrite 0#32 .byte 1#32) windowed).inWindow 4 0#32 = true
      ∧ (doing 4 (.memWrite 0#32 .byte 1#32) windowed).execAction 4 0#32 = .memWrite 0#32 .byte 1#32 := by
  unfold MemoryOk
  decide

/-- A read and a store of a callback at the top of the address space, and a read in a window. -/
theorem test_witness_CallbackMemoryAccess :
    ((calling 8#8 (.memRead 0xFFFFFFFE#32 .word) base).callbackAction 8#8 = .memRead 0xFFFFFFFE#32 .word
        ∧ (calling 8#8 (.memRead 0xFFFFFFFE#32 .word) base).inSomeWindow 0xFFFFFFFE#32 = false)
      ∧ ((calling 8#8 (.memRead 0#32 .byte) windowed).callbackAction 8#8 = .memRead 0#32 .byte
        ∧ (calling 8#8 (.memRead 0#32 .byte) windowed).inSomeWindow 0#32 = true)
      ∧ ((calling 8#8 (.memWrite 0xFFFFFFFE#32 .word 1#32) base).callbackAction 8#8 = .memWrite 0xFFFFFFFE#32 .word 1#32
        ∧ MemoryOk (calling 8#8 (.memWrite 0xFFFFFFFE#32 .word 1#32) base))
      ∧ Width.word.bytes.toNat ≤ (2#32 - 0xFFFFFFFE#32 : Word).toNat := by
  unfold MemoryOk
  decide

theorem test_witness_AdvanceClock :
    ∃ e q, { base with phase := .visit [] }.phase = .visit [] ∧ { base with phase := .visit [] }.queue = e :: q :=
  ⟨_, _, rfl, rfl⟩

/-- Two modes with a bank, of the same and of different storage. -/
theorem test_witness_BankTable :
    bankOf 0x11#5 = some (.priv .fiq) ∧ bankOf 0x1F#5 = some .normal ∧ sameRegister 0x11#5 7#4 0x1F#5 7#4
      ∧ ¬ sameRegister 0x11#5 8#4 0x1F#5 8#4 ∧ sameRegister 0x10#5 14#4 0x1F#5 14#4 := by
  unfold sameRegister normalMode
  decide

theorem test_witness_RegisterReads :
    coreOf 4#8 = some 4 ∧ bankOf (modeOf (base.core 4).status) = some (.priv .svc) ∧ bankOf 0x1B#5 = some (.priv .und) := by
  decide

/-- Both operations, and both kinds of register of the conclusion. -/
theorem test_witness_RegisterWriteTouchesOneSlot :
    coreOf 4#8 = some 4 ∧ (14#4 : BitVec 4) ≠ 15#4 ∧ (0x13#5 : BitVec 5) ∈ modes
      ∧ (0x13#5 : BitVec 5) = modeOf (base.core 4).status
      ∧ bankOf 0x13#5 = some (.priv .svc) ∧ sameRegister 0x13#5 14#4 0x13#5 14#4
      ∧ bankOf 0x12#5 = some (.priv .irq) ∧ ¬ sameRegister 0x13#5 14#4 0x12#5 14#4 := by
  unfold sameRegister normalMode
  decide

theorem test_witness_BranchRefillsThePipeline :
    coreOf 0#8 = some 0 ∧ coreOf 4#8 = some 4 ∧ modeOf (base.core 4).status ∈ modes ∧ (0x1F#5 : BitVec 5) ∈ modes := by
  decide

/-- With and without a switch, with and without I going from 1 to 0. -/
theorem test_witness_StatusWriteSwitchesMode :
    coreOf 4#8 = some 4 ∧ (base.core 4).status = 0xD3#32
      ∧ [0x1F#32, 0xD3#32, 0x53#32, 0xF3#32].all (fun v => modes.contains (modeOf v)) = true
      ∧ modeOf 0x1F#32 ≠ modeOf 0xD3#32 ∧ compact 0xF3#32 ≠ compact 0xD3#32
      ∧ irqMasked 0xD3#32 = true ∧ irqMasked 0x53#32 = false :=
  ⟨by decide, by decide, by decide, by decide, by decide, by decide, by decide⟩

theorem test_witness_SavedStatusOfTheCurrentBank :
    coreOf 4#8 = some 4 ∧ bankOf (modeOf (base.core 4).status) = some (.priv .svc)
      ∧ normalMode (modeOf ((running 4 0x10#32 8#32).core 4).status) := by
  unfold normalMode
  decide

theorem test_witness_ExceptionTable : excOf 7#3 = some .fiq ∧ excOf 0#3 = some .reset ∧ excOf 5#3 = none := by decide

/-- The link register of the interrupt mode, and a register that is not it. -/
theorem test_witness_ExceptionEntry :
    bankOf 0x12#5 = some (.priv .irq) ∧ sameRegister (excMode .irq) 14#4 0x12#5 14#4
      ∧ (13#4 : BitVec 4) ≠ 15#4 ∧ ¬ sameRegister (excMode .irq) 14#4 0x12#5 13#4 := by
  unfold sameRegister normalMode
  decide

theorem test_witness_TrapEntersTheException : coreOf 4#8 = some 4 ∧ excOf 2#3 = some .supervisorCall := by decide

/-- A saved status with a legal mode, with I going from 1 to 0 and with I staying 1. -/
theorem test_witness_ExceptionReturnRestores :
    coreOf 4#8 = some 4 ∧ (base.core 4).status = 0xD3#32 ∧ bankOf (modeOf 0xD3#32) = some (.priv .svc)
      ∧ (∀ v : Word, ((on base 4 fun k => { k with savedSvc := v }).core 4).saved .svc = v)
      ∧ [0x10#32, 0x90#32].all (fun v => modes.contains (modeOf v)) = true :=
  ⟨by decide, by decide, by decide, fun _ => rfl, by decide⟩

/-- The three kinds of target, with the greatest legal type. -/
theorem test_witness_SendSetsPendingAndKicks :
    ((4#8 : BitVec 8).toNat = 4 ∧ (31#16 : BitVec 16).toNat < 32)
      ∧ ((3#8 : BitVec 8).toNat = (3 : SymId).val ∧ (127#16 : BitVec 16).toNat = (127 : IrqType).val)
      ∧ ((5#8 : BitVec 8).toNat = 5 ∧ (0#16 : BitVec 16).toNat = (0 : IrqType).val) := by decide

/-- A machine that routes the types 40 and 41 to the cores 1 and 3. -/
def routed : State := { base with route := (base.route.set 40 0b1010#4).set 41 0b1010#4 }

/-- The management core, a symmetric core, and the broadcast. -/
theorem test_witness_SendsCoalesce :
    ((4#8 : BitVec 8).toNat = 4 ∧ (3#16 : BitVec 16).toNat < 32 ∧ (9#16 : BitVec 16).toNat < 32)
      ∧ ((3#8 : BitVec 8).toNat = (3 : SymId).val ∧ (40#16 : BitVec 16).toNat = (40 : IrqType).val
        ∧ (41#16 : BitVec 16).toNat = (41 : IrqType).val ∧ routed.route[40].getLsbD (3 : SymId).val = true
        ∧ ∀ c : SymId, routed.route[41].getLsbD c.val = true → routed.route[40].getLsbD c.val = true)
      ∧ exec (.sendIrq 4#8 3#16) base = .next (after (.sendIrq 4#8 3#16) base)
      ∧ exec (.sendIrq 4#8 9#16) (after (.sendIrq 4#8 3#16) base)
        = .next (after (.sendIrq 4#8 9#16) (after (.sendIrq 4#8 3#16) base))
      ∧ exec (.sendIrq 3#8 40#16) routed = .next (after (.sendIrq 3#8 40#16) routed)
      ∧ exec (.sendIrq 3#8 41#16) (after (.sendIrq 3#8 40#16) routed)
        = .next (after (.sendIrq 3#8 41#16) (after (.sendIrq 3#8 40#16) routed))
      ∧ exec (.sendIrq 5#8 40#16) routed = .next (after (.sendIrq 5#8 40#16) routed)
      ∧ exec (.sendIrq 5#8 41#16) (after (.sendIrq 5#8 40#16) routed)
        = .next (after (.sendIrq 5#8 41#16) (after (.sendIrq 5#8 40#16) routed)) :=
  ⟨by decide, by decide, rfl, rfl, rfl, rfl, rfl, rfl⟩

/-- The three modes. -/
theorem test_witness_SgiReachesItsTargets :
    symOf 3#8 = some 3 ∧ (15#10 : BitVec 10).toNat = (15 : Fin 16).val
      ∧ (0#2 : BitVec 2).toNat ≠ 3 ∧ (1#2 : BitVec 2).toNat ≠ 3 ∧ (2#2 : BitVec 2).toNat ≠ 3 := by decide

theorem test_witness_DistributorEnables :
    symOf 0#8 = some 0 ∧ symOf 3#8 = some 3 ∧ (127#16 : BitVec 16).toNat = (127 : IrqType).val := by decide

/-- Each way to have nothing to acknowledge, and type 40 as the lowest of 40 and 41. -/
theorem test_witness_AcknowledgeClaimsTheLowest :
    symOf 2#8 = some 2 ∧ { asserted 2 with distEnable := false }.distEnable = false
      ∧ base.sym[2].localEnable = false ∧ base.sym[2].pend &&& base.sym[2].enab = 0#128
      ∧ (asserted 2).distEnable = true ∧ (asserted 2).sym[2].localEnable = true
      ∧ ((asserted 2).sym[2].pend &&& (asserted 2).sym[2].enab).getLsbD (40 : IrqType).val = true
      ∧ ∀ z : IrqType, z < 40 → ((asserted 2).sym[2].pend &&& (asserted 2).sym[2].enab).getLsbD z.val = false := by
  decide

theorem test_witness_EndOfInterrupt : symOf 3#8 = some 3 ∧ (127#16 : BitVec 16).toNat = (127 : IrqType).val := by decide

/-- A withheld delivery, one with the line low, one with I set, and one that enters. -/
theorem test_witness_DeliveryWakesAndEnters :
    ((2 : CoreId), Instr.tIrqDeliver2) ∈ [((0 : CoreId), Instr.tIrqDeliver0), (1, .tIrqDeliver1), (2, .tIrqDeliver2),
        (3, .tIrqDeliver3), (4, .tIrqDeliver4)]
      ∧ base.extra[0].started = false ∧ { base with extra := base.extra.set 0 ⟨true, false, false⟩ }.extra[0].started = true
      ∧ base.line 0 = false ∧ (asserted 0).line 0 = true ∧ irqMasked ((asserted 0).core 0).status = true
      ∧ (on (asserted 0) 0 fun k => { k with status := 0x13#32 }).line 0 = true
      ∧ irqMasked ((on (asserted 0) 0 fun k => { k with status := 0x13#32 }).core 0).status = false := by decide

/-- Both operations. -/
theorem test_witness_HaltProcedure :
    coreOf 3#8 = some 3 ∧ (7#8 : BitVec 8).toNat = (7 : Fin 8).val ∧ (0 : Fin 8) = 0 := by decide

theorem test_witness_UnhaltClearsTheReason : coreOf 4#8 = some 4 ∧ (7#8 : BitVec 8).toNat = (7 : Fin 8).val := by decide

/-- Both extra cores, a started and a stopped one. -/
theorem test_witness_ExtraCoreCommands :
    (2#8 : BitVec 8).toNat = (0 : Fin 2).val + 2 ∧ (3#8 : BitVec 8).toNat = (1 : Fin 2).val + 2
      ∧ { base with extra := base.extra.set 1 ⟨true, false, false⟩ }.extra[1].started = true
      ∧ base.extra[1].started = false := by decide

theorem test_witness_PlainRegisterWrites :
    coreOf 4#8 = some 4 ∧ (127#16 : BitVec 16).toNat = (127 : IrqType).val := by decide

theorem test_witness_ResetReachesTheResetTable : base.bootImageOk = true := rfl

/-- The least and the greatest of the open parameters, and a memory that lists its last byte. -/
theorem test_witness_InvariantsHoldAtReset :
    { Params.default with rebaseHorizon := 1#64, irqLatency := 0#64, nTasks := 8 }.wf = true
      ∧ { Params.default with rebaseHorizon := 0x7FFFFFFFFFFFFFFF#64, irqLatency := 0x7FFFFFFFFFFFFFFE#64,
                              nTasks := 256 }.wf = true
      ∧ Memory.wf [(0xFFFFFFFF, 1#8)] = true := by decide

theorem test_witness_ResetWaitsForTheBootImage :
    { base with bootImageOk := false }.bootImageOk = false
      ∧ { base with bootImageOk := false, phase := .inReset }.phase = .inReset := by decide

/-- A machine in its loop, a delivery in flight. -/
def looping : State :=
  { asserted 1 with phase := .visit [0, 1, 4], running := true, queue := queueOf [(4, 1), (0, 1000)] }

theorem looping_time : TimeInv looping where
  params := by decide
  sorted := by decide
  notPast := by decide
  oneRebase := by decide
  horizon := by decide
  bound := by decide
  ready := by decide

theorem test_witness_TimeInvariantIsKept : TimeInv looping ∧ step looping = .next (stepped looping) :=
  ⟨looping_time, rfl⟩

theorem test_witness_GuardInvariantIsKept : GuardInv looping ∧ step looping = .next (stepped looping) :=
  ⟨by unfold GuardInv; decide, rfl⟩

theorem test_witness_ContextInvariantIsKept : ContextsOk looping ∧ step looping = .next (stepped looping) := by
  refine ⟨fun c => ⟨?_, ?_, ?_⟩, rfl⟩ <;> revert c <;> decide

/-- A step that stores, and one that does not. -/
theorem test_witness_MemoryIsWrittenByStoresOnly :
    step (doing 0 (.memWrite 4#32 .byte 1#32) base)
        = .next (stepped (doing 0 (.memWrite 4#32 .byte 1#32) base))
      ∧ MemoryOk (doing 0 (.memWrite 4#32 .byte 1#32) base)
      ∧ (stepped (doing 0 (.memWrite 4#32 .byte 1#32) base)).byteAt 4#32
        ≠ base.byteAt 4#32 :=
  ⟨rfl, rfl, by decide⟩

theorem test_witness_EngineNeverStops : TimeInv looping := looping_time

/-- A machine at its horizon, about to dispatch the rebase. -/
def rebasing : State := { base with phase := .eventPhase, now := 1000#64 }

theorem rebasing_time : TimeInv rebasing where
  params := by decide
  sorted := by decide
  notPast := by decide
  oneRebase := by decide
  horizon := by decide
  bound := by decide
  ready := by decide

theorem test_witness_ClockIsMonotonic :
    TimeInv rebasing ∧ step rebasing = .next (stepped rebasing) ∧ (stepped rebasing).now < rebasing.now :=
  ⟨rebasing_time, rfl, by decide⟩

/-- A head that is due, and one that is not. -/
theorem test_witness_EventsRunAtTheirDueCycle :
    (TimeInv rebasing ∧ rebasing.phase = .eventPhase ∧ ∃ e q, rebasing.queue = e :: q ∧ e.due ≤ rebasing.now)
      ∧ (TimeInv { base with phase := .eventPhase }
        ∧ ∃ e q, { base with phase := .eventPhase }.queue = e :: q ∧ base.now < e.due
        ∧ step { base with phase := .eventPhase } = .next (stepped { base with phase := .eventPhase })) :=
  ⟨⟨rebasing_time, rfl, _, _, rfl, by decide⟩,
    ⟨⟨by decide, by decide, by decide, by decide, by decide, by decide, by decide⟩, _, _, rfl, by decide, rfl⟩⟩

/-- The turn of core 0 changes its pipeline. -/
theorem test_witness_ContextIsMutatedByItsOwnStep :
    step looping = .next (stepped looping) ∧ ¬ ((stepped looping).core 0 = { looping.core 0 with
      halted := ((stepped looping).core 0).halted, excBase := ((stepped looping).core 0).excBase }) :=
  ⟨rfl, by decide⟩

/-- A dispatch of `T_END_FRAME`, and one of `T_CORE_CONFIG`. -/
theorem test_witness_EngineFlagsAreWrittenByTheirTasks :
    step { base with phase := .eventPhase, running := true, queue := queueOf [(1, 0), (0, 1000)] }
        = .next (stepped { base with phase := .eventPhase, running := true, queue := queueOf [(1, 0), (0, 1000)] })
      ∧ (stepped { base with phase := .eventPhase, running := true, queue := queueOf [(1, 0), (0, 1000)] }).running
        = false
      ∧ IdleStopped { base with phase := .eventPhase, running := true, queue := queueOf [(1, 0), (0, 1000)] }
      ∧ (stepped { base with phase := .eventPhase, queue := queueOf [(2, 0), (0, 1000)],
                             extra := base.extra.set 0 ⟨true, false, false⟩ }).fourCore ≠ base.fourCore :=
  ⟨rfl, by decide, (fun h => by cases h), by decide⟩

end Sys2Proof.Tests
end

section
/-! SUPPORT. Progress: which operations and which steps answer a next state (R9, R262), and how long a callback can run
(R23).  One lemma for each check an operation's meaning goes through, one for the operations, one for each phase of the
engine. -/

namespace Sys2Proof.Machine

/-- The machine goes on: the result is a next state. -/
def Proceeds (r : Result) : Prop := ∃ t, r = .next t

/-! ## The checks of the operations -/

theorem proceeds_next (s : State) : Proceeds (.next s) := ⟨s, rfl⟩

/-- A rejected operation changes the error log and the machine goes on (R11, R262). -/
theorem proceeds_rejected (s : State) (e : Err) (i : Instr) : Proceeds (s.rejected e i) := ⟨_, rfl⟩

/-- An operation that is a `fault(E)` is marked and the machine goes on too (R262; log entry 13). -/
theorem proceeds_faulted (s : State) (e : Err) (i : Instr) : Proceeds (s.faulted e i) := ⟨_, rfl⟩

theorem proceeds_ite {p : Prop} [Decidable p] {a b : Result} (ha : p → Proceeds a) (hb : ¬ p → Proceeds b) :
    Proceeds (if p then a else b) := by
  split
  · exact ha ‹_›
  · exact hb ‹_›

theorem proceeds_onNext {r : Result} (f : State → State) (h : Proceeds r) : Proceeds (onNext r f) := by
  obtain ⟨t, rfl⟩ := h
  exact ⟨f t, rfl⟩

theorem proceeds_withCore {s : State} {a : BitVec 8} {i : Instr} {f : CoreId → Result} (hf : ∀ c, Proceeds (f c)) :
    Proceeds (s.withCore a i f) := by
  unfold State.withCore
  split
  · exact hf _
  · exact proceeds_rejected _ _ _

theorem proceeds_withBank {s : State} {m : BitVec 5} {i : Instr} {f : Bank → Result} (hf : ∀ b, Proceeds (f b)) :
    Proceeds (s.withBank m i f) := by
  unfold State.withBank
  split
  · exact hf _
  · exact proceeds_faulted _ _ _

theorem proceeds_withSym {s : State} {a : BitVec 8} {i : Instr} {f : SymId → Result} (hf : ∀ c, Proceeds (f c)) :
    Proceeds (s.withSym a i f) := by
  unfold State.withSym
  split
  · exact hf _
  · exact proceeds_rejected _ _ _

theorem proceeds_withType {s : State} {y : BitVec 16} {i : Instr} {f : IrqType → Result} (hf : ∀ t, Proceeds (f t)) :
    Proceeds (s.withType y i f) := by
  unfold State.withType
  split
  · exact hf _
  · exact proceeds_rejected _ _ _

theorem proceeds_withReason {s : State} {r : BitVec 8} {i : Instr} {f : Fin 8 → Result} (hf : ∀ r, Proceeds (f r)) :
    Proceeds (s.withReason r i f) := by
  unfold State.withReason
  split
  · exact hf _
  · exact proceeds_rejected _ _ _

theorem proceeds_withExtra {s : State} {a : BitVec 8} {i : Instr} {f : Fin 2 → Result} (hf : ∀ e, Proceeds (f e)) :
    Proceeds (s.withExtra a i f) := by
  unfold State.withExtra
  split
  · exact hf _
  · exact proceeds_rejected _ _ _

theorem proceeds_writeBanked (s : State) (c : CoreId) (b : Bank) (index : BitVec 4) (value : Word) :
    Proceeds (s.writeBanked c b index value) :=
  proceeds_ite (fun _ => proceeds_next _) (fun _ => proceeds_next _)

/-! ## The operations with more than one way to answer -/

theorem execSchedule_proceeds (task : BitVec 8) (delay : BitVec 64) (s : State) : Proceeds (execSchedule task delay s) :=
  proceeds_ite (fun _ => proceeds_ite (fun _ => proceeds_next _) (fun _ => proceeds_faulted _ _ _))
    (fun _ => proceeds_rejected _ _ _)

theorem execSendIrq_proceeds (target : BitVec 8) (type : BitVec 16) (s : State) : Proceeds (execSendIrq target type s) := by
  refine proceeds_ite (fun _ => ?mgmt) (fun _ => proceeds_ite (fun _ => ?broadcast) (fun _ => ?sym))
  case mgmt =>
    split
    · exact proceeds_next _
    · exact proceeds_rejected _ _ _
  case broadcast => exact proceeds_withType fun _ => proceeds_next _
  case sym => exact proceeds_withSym fun _ => proceeds_withType fun _ => proceeds_next _

theorem execSgi_proceeds (core : BitVec 8) (type : BitVec 10) (mask : BitVec 4) (mode : BitVec 2) (s : State) :
    Proceeds (execSgi core type mask mode s) := by
  refine proceeds_withSym fun i => ?_
  split
  · exact proceeds_rejected _ _ _
  · split
    · exact proceeds_rejected _ _ _
    · exact proceeds_next _

theorem execIrqAck_proceeds (core : BitVec 8) (s : State) : Proceeds (execIrqAck core s) := by
  refine proceeds_withSym fun c => ?_
  split <;> exact proceeds_next _

theorem execSavedStatusRead_proceeds (core : BitVec 8) (s : State) : Proceeds (execSavedStatusRead core s) := by
  refine proceeds_withCore fun c => proceeds_withBank fun b => ?_
  cases b with
  | normal => exact proceeds_next _
  | priv p => exact proceeds_next _

theorem execSavedStatusWrite_proceeds (core : BitVec 8) (value : Word) (s : State) :
    Proceeds (execSavedStatusWrite core value s) := by
  refine proceeds_withCore fun c => proceeds_withBank fun b => ?_
  cases b with
  | normal => exact proceeds_rejected _ _ _
  | priv p => exact proceeds_next _

theorem execTrap_proceeds (core : BitVec 8) (exc : BitVec 3) (back : Word) (s : State) :
    Proceeds (execTrap core exc back s) := by
  refine proceeds_withCore fun c => ?_
  split
  · exact proceeds_rejected _ _ _
  · exact proceeds_next _

theorem execExcReturn_proceeds (core : BitVec 8) (target : Word) (s : State) : Proceeds (execExcReturn core target s) := by
  refine proceeds_withCore fun c => proceeds_withBank fun b => ?_
  cases b with
  | normal => exact proceeds_faulted _ _ _
  | priv p => exact proceeds_ite (fun _ => proceeds_next _) (fun _ => proceeds_faulted _ _ _)

/-! ## Every operation -/

/-- Every operation of the ports and every task of SEB's own answers a next state, whatever its operands, and so does
a peripheral task that is bound to a callback: the one way to stop is the unbound task of log entry 18. -/
theorem exec_proceeds {i : Instr} {s : State}
    (bound : ∀ task, i = .tPeripheral task → 8 ≤ task.toNat ∧ task.toNat < s.params.nTasks) : Proceeds (exec i s) := by
  cases i with
  | mgmtEnableWrite | mgmtPendClear | mgmtPendRead | mgmtEnableRead | distEnableWrite | perfModeWrite | readCycle | run
  | reset | tRebase | tEndFrame | tCoreConfig | tIrqDeliver0 | tIrqDeliver1 | tIrqDeliver2 | tIrqDeliver3
  | tIrqDeliver4 => exact proceeds_next _
  | schedule task delay => exact execSchedule_proceeds task delay s
  | sendIrq target type => exact execSendIrq_proceeds target type s
  | sgi core type mask mode => exact execSgi_proceeds core type mask mode s
  | irqAck core => exact execIrqAck_proceeds core s
  | halt | unhalt => exact proceeds_withCore fun _ => proceeds_withReason fun _ => proceeds_next _
  | localEnableWrite => exact proceeds_withSym fun _ => proceeds_next _
  | irqEnableSet | irqEnableClear | irqEoi =>
    exact proceeds_withSym fun _ => proceeds_withType fun _ => proceeds_next _
  | routeWrite => exact proceeds_withType fun _ => proceeds_next _
  | xcoreStart => exact proceeds_withExtra fun _ => proceeds_next _
  | xcoreShutdownReq =>
    exact proceeds_withExtra fun _ => proceeds_ite (fun _ => proceeds_next _) (fun _ => proceeds_next _)
  | excBaseWrite | pcWrite | statusRead | waitIrq => exact proceeds_withCore fun _ => proceeds_next _
  | regRead | bankRegRead => exact proceeds_withCore fun _ => proceeds_withBank fun _ => proceeds_next _
  | regWrite | bankRegWrite =>
    exact proceeds_withCore fun _ => proceeds_withBank fun _ => proceeds_writeBanked _ _ _ _ _
  | statusWrite =>
    exact proceeds_withCore fun _ => proceeds_ite (fun _ => proceeds_next _) (fun _ => proceeds_faulted _ _ _)
  | savedStatusRead core => exact execSavedStatusRead_proceeds core s
  | savedStatusWrite core value => exact execSavedStatusWrite_proceeds core value s
  | trap core exc back => exact execTrap_proceeds core exc back s
  | excReturn core target => exact execExcReturn_proceeds core target s
  | tPeripheral task => exact proceeds_ite (fun _ => proceeds_next _) (fun h => absurd (bound task rfl) h)

/-! ## Words on the ports -/

/-- No word of a port is a peripheral task: tasks come from the queue only (R93). -/
theorem portAccepts_tPeripheral (p : Port) (ph : Phase) (task : TaskId) :
    portAccepts p ph (.tPeripheral task) = false := by
  cases p <;> cases ph <;> rfl

/-- A word presented on a port is executed or logged, and the machine goes on (R9, R262). -/
theorem State.issue_proceeds (s : State) (p : Port) (w : OpWord) : Proceeds (s.issue p w) := by
  unfold State.issue
  split
  · rename_i i _
    refine proceeds_ite (fun accepted => exec_proceeds ?_) (fun _ => proceeds_next _)
    rintro task rfl
    simp [portAccepts_tPeripheral] at accepted
  · exact proceeds_next _

/-- A word that a callback presents leaves the phase, the parameters and the callback's notes as they are. -/
theorem State.issue_in_callback_frame {s t : State} {task : TaskId} {w : OpWord} (ph : s.phase = .callback task)
    (h : s.issue .command w = .next t) : t.phase = s.phase ∧ t.params = s.params ∧ t.answers = s.answers := by
  unfold State.issue at h
  split at h
  · rename_i i _
    split at h
    · rename_i accepted
      simp only [ph, portAccepts, Bool.and_eq_true, decide_eq_true_eq, Bool.not_eq_true'] at accepted
      obtain ⟨cmd, guest⟩ := accepted
      have moves := exec_moves_cmd cmd guest h
      exact ⟨moves.phase_eq, moves.params_eq, exec_answers_cmd cmd guest h⟩
    · cases h; exact ⟨rfl, rfl, rfl⟩
  · cases h; exact ⟨rfl, rfl, rfl⟩

/-! ## External callbacks -/

/-- A step of a callback that returns (R126). -/
theorem step_of_callback_ret {s : State} {task : TaskId} (ph : s.phase = .callback task)
    (ret : s.callbackAction task = .ret) : step s = .next { s with phase := .eventPhase } := by
  simp only [step, State.transition, ph, State.callbackStep, ret]

/-- A step of a callback that does not return: the callback goes on, with one more answer. -/
theorem step_of_callback_act {s : State} {task : TaskId} (ph : s.phase = .callback task)
    (act : s.callbackAction task ≠ .ret) :
    ∃ t a, step s = .next t ∧ t.phase = s.phase ∧ t.params = s.params ∧ t.answers = a :: s.answers := by
  have e : step s = s.callbackStep task := by simp only [step, State.transition, ph]
  rw [e, State.callbackStep]
  cases ha : s.callbackAction task with
  | cmdWord w =>
    obtain ⟨u, hu⟩ := s.issue_proceeds .command w
    obtain ⟨phase, params, answers⟩ := State.issue_in_callback_frame ph hu
    exact ⟨u.heard (wordAnswer w u), _, by simp only [hu, onNext], phase, params, by rw [State.heard_answers, answers]⟩
  | memRead addr n => exact ⟨_, _, rfl, rfl, rfl, rfl⟩
  | memWrite addr n v => exact ⟨_, _, rfl, rfl, rfl, rfl⟩
  | ret => exact absurd ha act

/-- The lines of the registry that can still speak of the callback in progress: answers are only ever added, so a line
for fewer answers than stand there is past. -/
def State.linesAhead (s : State) : List CallbackRule :=
  s.params.registry.filter fun r => decide (s.answers.length ≤ r.answers.length)

theorem State.length_linesAhead_le (s : State) : s.linesAhead.length ≤ s.params.registry.length :=
  List.length_filter_le _ _

/-- Once the callback has acted and heard the answer, the line of the registry it acted by is past. -/
theorem State.linesAhead_lt {s t : State} {task : TaskId} {a : Option (BitVec 64)} (act : s.callbackAction task ≠ .ret)
    (params : t.params = s.params) (answers : t.answers = a :: s.answers) :
    t.linesAhead.length < s.linesAhead.length := by
  obtain ⟨r, mem, -, now, -⟩ := State.callbackAction_mem act
  have ahead : r ∈ s.linesAhead := by simp [State.linesAhead, mem, now]
  have shrink : t.linesAhead = s.linesAhead.filter fun r => decide (s.answers.length < r.answers.length) := by
    simp only [State.linesAhead, params, answers, List.length_cons, List.filter_filter]
    refine List.filter_congr fun x _ => ?_
    rw [← Bool.decide_and, decide_eq_decide]
    omega
  rw [shrink, List.length_filter_lt_length_iff_exists]
  exact ⟨r, ahead, by simp [now]⟩

/-- A callback returns, after at most one step for each line that can still speak of it (R23). -/
theorem callback_returns {task : TaskId} (s : State) (ph : s.phase = .callback task) :
    ∃ n t, n ≤ s.linesAhead.length + 1 ∧ Reaches n s t ∧ t.phase = .eventPhase := by
  by_cases ret : s.callbackAction task = .ret
  · exact ⟨1, _, by omega, ⟨_, step_of_callback_ret ph ret, rfl⟩, rfl⟩
  · obtain ⟨u, a, hstep, phase, params, answers⟩ := step_of_callback_act ph ret
    have shorter := State.linesAhead_lt ret params answers
    obtain ⟨n, t, bound, reaches, done⟩ := callback_returns u (phase.trans ph)
    exact ⟨n + 1, t, by omega, ⟨u, hstep, reaches⟩, done⟩
termination_by s.linesAhead.length

/-- Settles O17: the call and the refusal are the two branches of the meaning of `T_PERIPHERAL`; that the callback
returns is an induction on the lines of the registry that are ahead of it. -/
theorem peripheralTaskCallsItsCallback : Obligations.PeripheralTaskCallsItsCallback := by
  intro s task
  refine ⟨fun low high => ?call, step_of_callback_ret, fun ph => ?returns, fun high => ?refused⟩
  case call => exact ⟨_, if_pos ⟨low, high⟩, ⟨_, _, rfl⟩, fun _ => rfl⟩
  case returns =>
    obtain ⟨n, t, bound, reaches, done⟩ := callback_returns s ph
    exact ⟨n, t, bound.trans (Nat.add_le_add_right s.length_linesAhead_le 1), reaches, done⟩
  case refused => exact if_neg fun ⟨_, low⟩ => absurd low (Nat.not_lt.2 high)

/-! ## The steps of the engine -/

/-- The TaskIds that stand for a peripheral task are those from 8 up, each for its own (R93). -/
theorem of_decodeTask_eq_tPeripheral {b task : TaskId} (h : decodeTask b = .tPeripheral task) :
    task = b ∧ 8 ≤ b.toNat := by
  have same : task = b := by
    unfold decodeTask at h
    split at h <;> cases h
    rfl
  have low : ∀ b, decodeTask b = .tPeripheral b → 8 ≤ b.toNat := by decide
  exact ⟨same, low b (same ▸ h)⟩

/-- The dispatch of a bound task answers a next state (R103, R126). -/
theorem State.dispatch_proceeds {s : State} {b : TaskId} (bound : b.toNat < s.params.nTasks) :
    Proceeds (s.dispatch b) := by
  refine exec_proceeds fun task h => ?_
  obtain ⟨rfl, low⟩ := of_decodeTask_eq_tPeripheral h
  exact ⟨low, bound⟩

/-- The executor breaks its contract in the step in progress (R150 (c)): a cost out of range, or `Unrecognized` after it
has changed state. -/
def State.contractBroken (s : State) (c : CoreId) (opcode : Word) : Prop :=
  (∃ cost, s.execAction c opcode = .done cost ∧ ¬ (1 ≤ cost.toNat ∧ cost.toNat < 2147483648))
    ∨ (s.execAction c opcode = .unrecognized ∧ s.stepChanged = true)

theorem State.returnCost_proceeds {s : State} {c : CoreId} {cs : List CoreId} {cost : BitVec 32}
    (h : 1 ≤ cost.toNat ∧ cost.toNat < 2147483648) : Proceeds (s.returnCost c cs cost) := by
  refine proceeds_ite (fun _ => proceeds_next _) (fun out => absurd ?_ out)
  simp only [BitVec.le_def, BitVec.toNat_ofNat]
  omega

/-- One action of an executor within its contract answers a next state. -/
theorem State.executorStep_proceeds {s : State} {c : CoreId} {opcode : Word} (cs : List CoreId)
    (kept : ¬ s.contractBroken c opcode) : Proceeds (s.executorStep c opcode cs) := by
  unfold State.executorStep
  cases ha : s.execAction c opcode with
  | cpuWord w => exact proceeds_onNext _ (s.issue_proceeds .cpu w)
  | cmdWord w => exact proceeds_onNext _ (s.issue_proceeds .command w)
  | memRead addr n => exact proceeds_next _
  | memWrite addr n v => exact proceeds_next _
  | done cost =>
    refine State.returnCost_proceeds ?_
    by_contra out
    exact kept (.inl ⟨cost, ha, out⟩)
  | unrecognized => exact proceeds_ite (fun changed => absurd (.inr ⟨ha, changed⟩) kept) (fun _ => proceeds_next _)

/-- The next command of the host (R91 (c)). -/
theorem State.hostStep_proceeds (s : State) : Proceeds s.hostStep := by
  unfold State.hostStep
  split
  · exact proceeds_next _
  · exact State.issue_proceeds _ _ _

theorem State.loopStep_proceeds (s : State) : Proceeds s.loopStep :=
  proceeds_ite (fun _ => proceeds_next _) (fun _ => proceeds_next _)

/-- The test between two passes needs a head of the queue, which I-2 of R50 gives. -/
theorem State.passStep_proceeds {s : State} (h : s.queue ≠ []) : Proceeds s.passStep := by
  unfold State.passStep
  split
  · contradiction
  · exact proceeds_ite (fun _ => proceeds_next _) (fun _ => proceeds_next _)

/-- The advance of the clock needs the head of the queue too (R153). -/
theorem State.advanceClock_proceeds {s : State} (h : s.queue ≠ []) : Proceeds s.advanceClock := by
  unfold State.advanceClock
  split
  · contradiction
  · exact proceeds_next _

theorem State.visitStep_proceeds {s : State} (cs : List CoreId) (h : s.queue ≠ []) : Proceeds (s.visitStep cs) := by
  cases cs with
  | nil => exact State.advanceClock_proceeds h
  | cons c cs => exact proceeds_ite (fun _ => proceeds_next _) (fun _ => proceeds_next _)

theorem State.eventStep_proceeds {s : State} (bound : ∀ e ∈ s.queue, e.task.toNat < s.params.nTasks) :
    Proceeds s.eventStep := by
  unfold State.eventStep
  split
  · exact proceeds_next _
  · rename_i e q hq
    exact proceeds_ite (fun _ => State.dispatch_proceeds (bound e (by simp [hq]))) (fun _ => proceeds_next _)

theorem State.callbackStep_proceeds (s : State) (task : TaskId) : Proceeds (s.callbackStep task) := by
  unfold State.callbackStep
  cases s.callbackAction task with
  | cmdWord w => exact proceeds_onNext _ (s.issue_proceeds .command w)
  | memRead | memWrite | ret => exact proceeds_next _

/-- From every state as the invariant of the clock says a step answers a next state, but in the step of an executor
that breaks its contract. -/
theorem step_proceeds {s : State} (inv : TimeInv s)
    (kept : ∀ c opcode cs, s.phase = .inStep c opcode cs → ¬ s.contractBroken c opcode) : Proceeds (step s) := by
  have head : s.queue ≠ [] := queue_ne_nil inv.oneRebase
  unfold step State.transition
  cases ph : s.phase with
  | inReset => exact proceeds_next _
  | idle => exact s.hostStep_proceeds
  | loopTop => exact s.loopStep_proceeds
  | passTop => exact State.passStep_proceeds head
  | visit cs => exact State.visitStep_proceeds cs head
  | inStep c opcode cs => exact State.executorStep_proceeds cs (kept c opcode cs ph)
  | eventPhase => exact State.eventStep_proceeds inv.bound
  | callback task => exact s.callbackStep_proceeds task

/-- Settles O56, by `step_proceeds`: where no step follows, an executor has broken its contract. -/
theorem engineNeverStops : Obligations.EngineNeverStops := by
  intro s inv
  by_cases broken : ∃ c opcode cs, s.phase = .inStep c opcode cs ∧ s.contractBroken c opcode
  · exact .inr broken
  · exact .inl (step_proceeds inv fun c opcode cs ph h => broken ⟨c, opcode, cs, ph, h⟩)

end Sys2Proof.Machine
end

section
/-! SUPPORT. Which contexts an operation can change (R47): what the shared procedures do to `cores`, and with them every
command, every CPU word and every task. -/

namespace Sys2Proof.Machine

/-! ## The shared procedures and the contexts -/

@[simp] theorem State.kick_cores (s : State) (t : CoreId) : (s.kick t).cores = s.cores := by
  unfold State.kick; split <;> rfl

@[simp] theorem State.irqCheck_cores (s : State) (t : CoreId) : (s.irqCheck t).cores = s.cores := by
  unfold State.irqCheck; split <;> simp

@[simp] theorem State.irqCheckIfUnmasked_cores (s : State) (c : CoreId) (old new : Word) :
    (s.irqCheckIfUnmasked c old new).cores = s.cores := by
  unfold State.irqCheckIfUnmasked; split <;> simp

@[simp] theorem State.sendSym_cores (s : State) (c : SymId) (y : IrqType) : (s.sendSym c y).cores = s.cores := by
  unfold State.sendSym; split <;> simp

@[simp] theorem State.broadcast_cores (s : State) (y : IrqType) : (s.broadcast y).cores = s.cores := by
  simp [State.broadcast]

@[simp] theorem State.sgiTo_cores (s : State) (i : SymId) (y : Fin 16) (m : BitVec 4) (c : SymId) :
    (s.sgiTo i y m c).cores = s.cores := by
  unfold State.sgiTo; split <;> simp

@[simp] theorem State.sgiSend_cores (s : State) (i : SymId) (y : Fin 16) (m : BitVec 4) :
    (s.sgiSend i y m).cores = s.cores := by
  simp [State.sgiSend]

@[simp] theorem State.clusterCheck_cores (s : State) (c : CoreId) : (s.clusterCheck c).cores = s.cores := by
  unfold State.clusterCheck State.clusterIdle
  split
  · split <;> simp
  · rfl

@[simp] theorem State.shutdownSeq_cores (s : State) (e : Fin 2) : (s.shutdownSeq e).cores = s.cores := by
  unfold State.shutdownSeq
  simp only
  split
  · split <;> rfl
  · rfl

@[simp] theorem State.shutdownCheck_cores (s : State) (c : CoreId) : (s.shutdownCheck c).cores = s.cores := by
  unfold State.shutdownCheck; split <;> simp

/-- `Halt(c, r)` writes one bit of one context (R210). -/
@[simp] theorem State.halt_cores (s : State) (c : CoreId) (r : Fin 8) :
    (s.halt c r).cores = s.cores.set c ((s.core c).halt r) := by
  simp [State.halt]

/-- What any context is after one of them has been flushed. -/
theorem State.core_flush (s : State) (c d : CoreId) : (s.flush c).core d = if d = c then s.flushed c else s.core d :=
  s.core_setCore c d (s.flushed c)

/-! ## One core's context -/

/-- Every context but that of core `c` is the same. -/
def OthersKept (c : CoreId) (s t : State) : Prop := ∀ d, d ≠ c → t.core d = s.core d

theorem OthersKept.refl (c : CoreId) (s : State) : OthersKept c s s := fun _ _ => rfl

/-- The contexts of two states are the same. -/
theorem OthersKept.congr {c : CoreId} {s t u : State} (h : OthersKept c s t) (same : u.cores = t.cores) :
    OthersKept c s u := fun d hd => (State.core_congr same d).trans (h d hd)

theorem OthersKept.of_cores {c : CoreId} {s t : State} (same : t.cores = s.cores) : OthersKept c s t :=
  (OthersKept.refl c s).congr same

/-- The response of an operation is no context. -/
theorem OthersKept.respOpen {c : CoreId} {s t : State} (h : OthersKept c s t) : OthersKept c s t.respOpen := h.congr rfl

theorem OthersKept.setCore {c : CoreId} {s t : State} (h : OthersKept c s t) (k : CpuContext) :
    OthersKept c s (t.setCore c k) := fun d hd => (t.core_setCore_ne k hd).trans (h d hd)

theorem OthersKept.flush {c : CoreId} {s t : State} (h : OthersKept c s t) : OthersKept c s (t.flush c) :=
  fun d hd => by rw [State.core_flush, if_neg hd]; exact h d hd

theorem othersKept_writeBanked {c : CoreId} {s t : State} {b : Bank} {index : BitVec 4} {value : Word}
    (h : s.writeBanked c b index value = .next t) : OthersKept c s t := by
  unfold State.writeBanked at h
  split at h <;> cases h
  · exact ((OthersKept.refl c s).setCore _).flush.respOpen
  · exact ((OthersKept.refl c s).setCore _).respOpen

theorem OthersKept.excEntry {c : CoreId} {s t : State} (h : OthersKept c s t) (x : Exc) :
    OthersKept c s (t.excEntry c x) := (h.setCore _).flush

theorem othersKept_statusWrite (c : CoreId) (s : State) (v : Word) : OthersKept c s (s.statusWrite c v) := by
  refine OthersKept.congr ?_ (State.irqCheckIfUnmasked_cores _ _ _ _)
  split
  · exact ((OthersKept.refl c s).setCore _).flush
  · exact (OthersKept.refl c s).setCore _

theorem othersKept_excReturn (c : CoreId) (s : State) (v target : Word) :
    OthersKept c s (s.excReturn c v target) :=
  ((OthersKept.refl c s).setCore _).flush.congr (State.irqCheckIfUnmasked_cores _ _ _ _)

theorem othersKept_halt (c : CoreId) (s : State) (r : Fin 8) : OthersKept c s (s.halt c r) :=
  ((OthersKept.refl c s).setCore ((s.core c).halt r)).congr (State.halt_cores s c r)

theorem OthersKept.deliverLine {c : CoreId} {s t : State} (h : OthersKept c s t) :
    OthersKept c s (t.deliverLine c) := by
  unfold State.deliverLine State.wakeAndEnter
  split
  · simp only
    split
    · exact h.setCore _
    · exact (h.setCore _).excEntry _
  · exact h

/-! ## Results -/

/-- If the result is a next state, it is one of which `P` holds. -/
def Leads (P : State → Prop) (r : Result) : Prop := ∀ t, r = .next t → P t

section
variable {P : State → Prop} {s : State}

theorem leads_next {t : State} (h : P t) : Leads P (.next t) := by
  rintro _ ⟨⟩; exact h

theorem leads_ite {p : Prop} [Decidable p] {a b : Result} (ha : p → Leads P a) (hb : ¬ p → Leads P b) :
    Leads P (if p then a else b) := by
  split
  · exact ha ‹_›
  · exact hb ‹_›

theorem leads_withCore {a : BitVec 8} {i : Instr} {f : CoreId → Result} (log : ∀ e w, P (s.reject e w))
    (hf : ∀ c, coreOf a = some c → Leads P (f c)) : Leads P (s.withCore a i f) := by
  unfold State.withCore
  split
  · exact hf _ ‹_›
  · exact leads_next (log _ _)

theorem leads_withBank {m : BitVec 5} {i : Instr} {f : Bank → Result} (mark : ∀ e w, P (s.markFault e w))
    (hf : ∀ b, Leads P (f b)) : Leads P (s.withBank m i f) := by
  unfold State.withBank
  split
  · exact hf _
  · exact leads_next (mark _ _)

theorem leads_withSym {a : BitVec 8} {i : Instr} {f : SymId → Result} (log : ∀ e w, P (s.reject e w))
    (hf : ∀ c, Leads P (f c)) : Leads P (s.withSym a i f) := by
  unfold State.withSym
  split
  · exact hf _
  · exact leads_next (log _ _)

theorem leads_withType {y : BitVec 16} {i : Instr} {f : IrqType → Result} (log : ∀ e w, P (s.reject e w))
    (hf : ∀ y, Leads P (f y)) : Leads P (s.withType y i f) := by
  unfold State.withType
  split
  · exact hf _
  · exact leads_next (log _ _)

theorem leads_withReason {r : BitVec 8} {i : Instr} {f : Fin 8 → Result} (log : ∀ e w, P (s.reject e w))
    (hf : ∀ r, Leads P (f r)) : Leads P (s.withReason r i f) := by
  unfold State.withReason
  split
  · exact hf _
  · exact leads_next (log _ _)

theorem leads_withExtra {a : BitVec 8} {i : Instr} {f : Fin 2 → Result} (log : ∀ e w, P (s.reject e w))
    (hf : ∀ e, Leads P (f e)) : Leads P (s.withExtra a i f) := by
  unfold State.withExtra
  split
  · exact hf _
  · exact leads_next (log _ _)

end

/-! ## CPU words -/

/-- A CPU word changes no context but that of the core it names (R92). -/
theorem exec_core_cpu {i : Instr} {s t : State} {d : CoreId} (hi : i.format = .cpu) (h : exec i s = .next t)
    (hd : coreOf (cpuCoreField i) ≠ some d) : t.core d = s.core d := by
  have named : ∀ {a : BitVec 8} {f : CoreId → Result}, cpuCoreField i = a →
      (∀ c, Leads (OthersKept c s) (f c)) → Leads (fun t => t.core d = s.core d) (s.withCore a i f) := by
    intro a f ha hf
    refine leads_withCore (fun _ _ => rfl) fun c hc t h => hf c t h d ?_
    rintro rfl
    exact hd (ha ▸ hc)
  have banked : ∀ {c : CoreId} {m : BitVec 5} {f : Bank → Result}, (∀ b, Leads (OthersKept c s) (f b)) →
      Leads (OthersKept c s) (s.withBank m i f) := leads_withBank fun _ _ => .of_cores rfl
  refine (?_ : Leads (fun t => t.core d = s.core d) (exec i s)) t h
  cases i <;> try (exfalso; simp [Instr.format] at hi; done)
  all_goals refine named (fieldA_mkWord _ _ _ _) fun c => ?_
  case regRead | bankRegRead => exact banked fun b => leads_next (.of_cores rfl)
  case regWrite | bankRegWrite => exact banked fun b _ => othersKept_writeBanked
  case pcWrite => exact leads_next ((OthersKept.refl c s).setCore _).flush.respOpen
  case statusRead => exact leads_next (.of_cores rfl)
  case statusWrite core value =>
    exact leads_ite (fun _ => leads_next (othersKept_statusWrite c s value).respOpen) fun _ =>
      leads_next (.of_cores rfl)
  case savedStatusRead =>
    refine banked fun b => ?_
    cases b <;> exact leads_next (.of_cores rfl)
  case savedStatusWrite =>
    refine banked fun b => ?_
    cases b with
    | normal => exact leads_next (.of_cores rfl)
    | priv p => exact leads_next ((OthersKept.refl c s).setCore _).respOpen
  case trap =>
    split
    · exact leads_next (.of_cores rfl)
    · exact leads_next (((OthersKept.refl c s).setCore _).excEntry _).respOpen
  case excReturn core target =>
    refine banked fun b => ?_
    cases b with
    | normal => exact leads_next (.of_cores rfl)
    | priv p =>
      exact leads_ite (fun _ => leads_next (othersKept_excReturn c s _ target).respOpen) fun _ =>
        leads_next (.of_cores rfl)
  case waitIrq => exact leads_next (othersKept_halt c s 0).respOpen

/-! ## Commands -/

/-- No context is changed but in its halted mask and its exception base. -/
def OwnKept (s t : State) : Prop := ∀ c, sameOwn (s.core c) (t.core c)

theorem OwnKept.of_cores {s t : State} (same : t.cores = s.cores) : OwnKept s t :=
  fun c => by rw [State.core_congr same c]; rfl

theorem OwnKept.of_set {s t : State} {c : CoreId} {k : CpuContext} (one : t.cores = s.cores.set c k)
    (own : sameOwn (s.core c) k) : OwnKept s t := by
  intro d
  rw [State.core_congr (t := s.setCore c k) one, State.core_setCore]
  split
  · subst d; exact own
  · rfl

/-- No command but `RUN` and `RESET` changes more of a context than its halted mask and its exception base (R47). -/
theorem exec_ownKept_cmd {i : Instr} {s t : State} (hi : i.format = .cmd) (hh : i.hostOnly = false)
    (h : exec i s = .next t) : OwnKept s t := by
  have log : ∀ e w, OwnKept s (s.reject e w) := fun _ _ => .of_cores rfl
  refine (?_ : Leads (OwnKept s) (exec i s)) t h
  cases i <;> try first
    | (exfalso; simp [Instr.format] at hi; done)
    | (exfalso; simp [Instr.hostOnly] at hh; done)
  case schedule =>
    exact leads_ite (fun _ => leads_ite (fun _ => leads_next (.of_cores rfl)) fun _ => leads_next (.of_cores rfl))
      fun _ => leads_next (.of_cores rfl)
  case sendIrq =>
    refine leads_ite (fun _ => ?mgmt) fun _ => leads_ite (fun _ => ?broadcast) fun _ => ?sym
    case mgmt => split <;> exact leads_next (.of_cores (by simp))
    case broadcast => exact leads_withType log fun y => leads_next (.of_cores (by simp))
    case sym => exact leads_withSym log fun c => leads_withType log fun y => leads_next (.of_cores (by simp))
  case halt =>
    refine leads_withCore log fun c _ => leads_withReason log fun r => leads_next ?_
    exact .of_set (k := (s.core c).halt r) (State.halt_cores s c r) rfl
  case unhalt => exact leads_withCore log fun c _ => leads_withReason log fun r => leads_next (.of_set rfl rfl)
  case excBaseWrite => exact leads_withCore log fun c _ => leads_next (.of_set rfl rfl)
  case sgi =>
    refine leads_withSym log fun c => ?_
    split
    · exact leads_next (log _ _)
    · split <;> exact leads_next (.of_cores (by simp))
  case mgmtEnableWrite | distEnableWrite => exact leads_next (.of_cores (by simp))
  case mgmtPendClear | mgmtPendRead | mgmtEnableRead | perfModeWrite | readCycle => exact leads_next (.of_cores rfl)
  case localEnableWrite => exact leads_withSym log fun c => leads_next (.of_cores (by simp))
  case irqEnableSet | irqEnableClear | irqEoi =>
    exact leads_withSym log fun c => leads_withType log fun y => leads_next (.of_cores (by simp))
  case routeWrite => exact leads_withType log fun y => leads_next (.of_cores rfl)
  case irqAck =>
    refine leads_withSym log fun c => ?_
    split <;> exact leads_next (.of_cores rfl)
  case xcoreStart => exact leads_withExtra log fun e => leads_next (.of_cores rfl)
  case xcoreShutdownReq =>
    exact leads_withExtra log fun e => leads_ite (fun _ => leads_next (.of_cores rfl)) fun _ =>
      leads_next (.of_cores rfl)

/-! ## Tasks -/

/-- A task changes more of a context than its halted mask and its exception base only if it is `T_REBASE` or a delivery
to that core (R47, R128, R205). -/
theorem exec_task_sameOwn {b : TaskId} {s t : State} {d : CoreId} (h : exec (decodeTask b) s = .next t)
    (hd : b.toNat ≠ 3 + d.val) (h0 : b.toNat ≠ 0) : sameOwn (s.core d) (t.core d) := by
  have others : ∀ {c : CoreId}, b.toNat = 3 + c.val → OthersKept c s t → sameOwn (s.core d) (t.core d) := by
    intro c hc k
    rw [k d (fun e => hd (e ▸ hc))]
    rfl
  have extra : ∀ (e : Fin 2) (c : CoreId), OthersKept c s (s.deliverExtra e c).respOpen := by
    intro e c
    unfold State.deliverExtra
    simp only
    split
    · exact OthersKept.deliverLine (.of_cores rfl)
    · exact .of_cores rfl
  unfold decodeTask at h
  split at h
  · exact absurd rfl h0
  · cases h; rfl
  · cases h; rfl
  · cases h; exact others (c := 0) rfl (OthersKept.deliverLine (.of_cores rfl))
  · cases h; exact others (c := 1) rfl (OthersKept.deliverLine (.of_cores rfl))
  · cases h; exact others (c := 2) rfl (extra 0 2)
  · cases h; exact others (c := 3) rfl (extra 1 3)
  · cases h; exact others (c := 4) rfl (OthersKept.deliverLine (.of_cores rfl))
  · simp only [exec, execTPeripheral] at h
    split at h
    · cases h; rfl
    · cases h

end Sys2Proof.Machine
end

section
/-! SUPPORT. What one step can do to the clock, the queue, the contexts and the guards: `step_effect` sorts the cases of
`GoesTo` by it, so that an invariant of these is proved by one case for each kind of effect. -/

namespace Sys2Proof.Machine

/-- `t` has the parameters, the clock, the queue, the contexts and the guards of `s`. -/
structure SameClockwork (s t : State) : Prop where
  /-- The parameters are the same. -/
  params : t.params = s.params
  /-- `now` is the same. -/
  now : t.now = s.now
  /-- The queue is the same. -/
  queue : t.queue = s.queue
  /-- Every context is the same. -/
  cores : t.cores = s.cores
  /-- The guards are the same. -/
  guard : t.guard = s.guard

/-- The reset sequence is next: its input is being tested, or the host issues `RESET`. -/
def State.Resetting (s : State) : Prop :=
  (s.phase = .idle ∧ ∃ rest, s.hostIn = opWord .reset :: rest) ∨ s.phase = .inReset

/-- What a step that answers a next state does to the clock, the queue, the contexts and the guards. -/
inductive Effect (s : State) : State → Prop where
  /-- Nothing. -/
  | same {t} (k : SameClockwork s t) : Effect s t
  /-- What a word does, and of the contexts beyond their halted masks and exception bases only that of the core whose
  step is in progress is changed. -/
  | word {t} (m : Moves s t)
      (own : ∀ c, (∃ opcode cs, s.phase = .inStep c opcode cs) ∨ sameOwn (s.core c) (t.core c)) : Effect s t
  /-- The reset sequence. -/
  | reset {u} (r : s.Resetting) (k : SameClockwork s u) : Effect s u.enterReset
  /-- `now` jumps to the head of the queue (R155). -/
  | jump {e q t} (n : s.queue = e :: q) (l : e.due ≤ s.now) (k : SameClockwork { s with now := e.due } t) : Effect s t
  /-- The clock advances to the least ready-at cycle, or to the head of the queue (R153). -/
  | advance {e q t} (n : s.queue = e :: q)
      (k : SameClockwork { s with now := maxCycle s.now (s.leastReady e.due (visitOrder s.fourCore)) } t) : Effect s t
  /-- The pipeline of a core advances. -/
  | begin {c cs t} (h : s.phase = .visit (c :: cs)) (k : SameClockwork (s.setCore c (s.advanced c)) t) : Effect s t
  /-- The step of a core is charged. -/
  | charge {c opcode cs t} (cost : BitVec 32) (h : s.phase = .inStep c opcode cs) (b : cost ≤ 0x7FFFFFFF#32)
      (k : SameClockwork (s.charge c cost) t) : Effect s t
  /-- The head of the queue is dispatched. -/
  | event {e q t} (h : s.phase = .eventPhase) (n : s.queue = e :: q) (l : e.due ≤ s.now)
      (m : exec (decodeTask e.task) { s with queue := q } = .next t) : Effect s t

/-- The host's tape is outside the moves. -/
theorem SameButTape.same {s t : State} (k : SameButTape s t) : SameCore s t := by
  obtain ⟨_, rfl⟩ := k
  exact ⟨rfl, rfl, rfl, rfl, rfl, rfl, rfl, rfl, rfl, rfl⟩

/-- The notes of an agent change no context. -/
theorem SameButNotes.core_eq {s t : State} (k : SameButNotes s t) (c : CoreId) : t.core c = s.core c := by
  obtain ⟨_, _, rfl⟩ := k
  rfl

theorem SameButNotes.sameClockwork {s t u : State} (k : SameButNotes t u) (h : SameClockwork s t) :
    SameClockwork s u := by
  obtain ⟨_, _, rfl⟩ := k
  exact ⟨h.params, h.now, h.queue, h.cores, h.guard⟩

/-- A command is a word that changes no context beyond its halted mask and its exception base. -/
theorem Effect.of_command {s u t v : State} {i : Instr} (f : i.format = .cmd) (o : i.hostOnly = false)
    (k : SameButTape s u) (m : exec i u = .next t) (n : SameButNotes t v) : Effect s v := by
  refine .word (((Moves.of_same k.same).trans (exec_moves_cmd f o m)).notes n) fun c => .inr ?_
  rw [n.core_eq, ← State.core_congr k.same.cores]
  exact exec_ownKept_cmd f o m c

/-- A CPU word changes the context of the core whose step is in progress, and no other. -/
theorem Effect.of_cpuWord {s t v : State} {c : CoreId} {opcode : Word} {cs : List CoreId} {i : Instr}
    (f : i.format = .cpu) (h : s.phase = .inStep c opcode cs) (own : ownCore c (cpuCoreField i) = true)
    (m : exec i s = .next t) (n : SameButNotes t v) : Effect s v := by
  refine .word ((exec_moves_cpu f m).notes n) fun d => ?_
  by_cases hd : coreOf (cpuCoreField i) = some d
  · simp only [ownCore, hd, decide_eq_true_eq] at own
    exact .inl ⟨opcode, cs, own ▸ h⟩
  · rw [n.core_eq, exec_core_cpu f m hd]
    exact .inr rfl

/-- Every step that answers a next state has one of the effects. -/
theorem step_effect {s t : State} (h : step s = .next t) : Effect s t := by
  have stay : SameClockwork s s := ⟨rfl, rfl, rfl, rfl, rfl⟩
  cases step_goesTo h with
  | silent => exact .same stay
  | waiting ph => exact .reset (.inr ph) stay
  | hostReset ph w => exact .reset (.inl ⟨ph, _, w⟩) ⟨rfl, rfl, rfl, rfl, rfl⟩
  | hostRun _ k => obtain ⟨_, rfl⟩ := k; exact .same ⟨rfl, rfl, rfl, rfl, rfl⟩
  | command i f o k m n => exact .of_command f o k m n
  | cpuWord i f ph own m n => exact .of_cpuWord f ph own m n
  | badWord w k n => obtain ⟨_, rfl⟩ := k; exact .same (n.sameClockwork ⟨rfl, rfl, rfl, rfl, rfl⟩)
  | again | yields | newPass | skip | eventsDone | callbackDone => exact .same ⟨rfl, rfl, rfl, rfl, rfl⟩
  | jump _ n l => exact .jump n l ⟨rfl, rfl, rfl, rfl, rfl⟩
  | begin ph _ => exact .begin ph ⟨rfl, rfl, rfl, rfl, rfl⟩
  | advance _ n => exact .advance n ⟨rfl, rfl, rfl, rfl, rfl⟩
  | reads _ _ _ k | writes _ _ _ _ _ k | callbackReads _ _ _ k | callbackWrites _ _ _ _ _ k =>
    exact .same (k.sameClockwork ⟨rfl, rfl, rfl, rfl, rfl⟩)
  | returns cost ph b => exact .charge cost ph b.2 ⟨rfl, rfl, rfl, rfl, rfl⟩
  | unrecognized ph _ => exact .charge 1#32 ph (by decide) ⟨rfl, rfl, rfl, rfl, rfl⟩
  | event ph n l m => exact .event ph n l m

/-! ## The reset sequence -/

/-- Without the boot image the reset sequence waits (R292). -/
theorem State.enterReset_waiting {s : State} (h : s.bootImageOk = false) : SameClockwork s s.enterReset := by
  rw [State.enterReset, if_neg (by simp [h])]
  exact ⟨rfl, rfl, rfl, rfl, rfl⟩

theorem State.enterReset_running {s : State} (h : s.bootImageOk = true) : s.enterReset = s.resetSequence := by
  rw [State.enterReset, if_pos h]

/-- The contexts of the cold start. -/
theorem State.core_coldStart (s : State) (c : CoreId) :
    s.coldStart.core c = CpuContext.coldStart s.params (s.freeCount + 35 * c.val) c := by
  simp [State.core, State.coldStart]

/-- What a read answers depends on the parameters, the memory and the count of free values only. -/
theorem State.memAnswer_congr {s t : State} (params : t.params = s.params) (mem : t.mem = s.mem)
    (count : t.freeCount = s.freeCount) (c : CoreId) (a : Word) (n : Width) :
    t.memAnswer c a n = s.memAnswer c a n := by
  unfold State.memAnswer State.inWindow
  rw [params, mem, count]

/-- What `Flush` leaves depends on the context, the parameters, the memory and the count of free values only. -/
theorem State.flushed_congr {s t : State} {c : CoreId} (core : t.core c = s.core c) (params : t.params = s.params)
    (mem : t.mem = s.mem) (count : t.freeCount = s.freeCount) : t.flushed c = s.flushed c := by
  have used : ∀ a n, (t.afterRead c a n).freeCount = (s.afterRead c a n).freeCount := by
    intro a n
    unfold State.afterRead State.inWindow
    rw [params, count]
  unfold State.flushed
  rw [core, State.memAnswer_congr params mem count,
    State.memAnswer_congr (s := s.afterRead c _ _) (t := t.afterRead c _ _) params mem (used _ _)]

/-- The two fetches of the `Flush` of core `c`, the later one first, as the refilled context holds them (R149). -/
def State.refill (s : State) (c : CoreId) (k : CpuContext) : List Output :=
  [.memRead c ((s.core c).flushAddr + (fetchWidth (s.core c).status).bytes) (fetchWidth (s.core c).status) k.pipe1,
   .memRead c (s.core c).flushAddr (fetchWidth (s.core c).status) k.pipe0]

/-- One core after another is flushed. -/
def State.flushAll (s : State) (cs : List CoreId) : State := cs.foldl State.flush s

/-- Two states that agree but for the contexts, the outputs and the count of free values. -/
def SameButCores (s t : State) : Prop := ∃ k o n, t = { s with cores := k, out := o, freeCount := n }

theorem SameButCores.refl (s : State) : SameButCores s s := ⟨_, _, _, rfl⟩

theorem SameButCores.flush {s t : State} (h : SameButCores s t) (c : CoreId) : SameButCores s (t.flush c) := by
  obtain ⟨_, _, _, rfl⟩ := h
  obtain ⟨_, _, e⟩ := State.flush_eq _ c
  exact ⟨_, _, _, e⟩

theorem SameButCores.flushAll {s t : State} (h : SameButCores s t) (cs : List CoreId) :
    SameButCores s (t.flushAll cs) := by
  induction cs generalizing t with
  | nil => exact h
  | cons c cs ih => exact ih (h.flush c)

/-- Flushing leaves the cores that are not flushed. -/
theorem State.core_flushAll_of_notMem {s : State} {cs : List CoreId} {c : CoreId} (hc : c ∉ cs) :
    (s.flushAll cs).core c = s.core c := by
  induction cs generalizing s with
  | nil => rfl
  | cons d cs ih =>
    rw [List.mem_cons, not_or] at hc
    exact (ih hc.2).trans (by rw [State.core_flush, if_neg hc.1])

/-- Every flushed core has what its own `Flush` leaves, whatever free values were used up before. -/
theorem State.core_flushAll_of_mem {s : State} {cs : List CoreId} {c : CoreId} (one : cs.Nodup) (hc : c ∈ cs) :
    ∃ n, (s.flushAll cs).core c = State.flushed { s with freeCount := n } c := by
  induction cs generalizing s with
  | nil => cases hc
  | cons d cs ih =>
    obtain ⟨hd, one⟩ := List.nodup_cons.1 one
    rcases List.mem_cons.1 hc with rfl | hc
    · refine ⟨s.freeCount, (State.core_flushAll_of_notMem hd).trans ?_⟩
      rw [State.core_flush, if_pos rfl]
    · obtain ⟨n, hn⟩ := ih (s := s.flush d) one hc
      have other : c ≠ d := fun e => hd (e ▸ hc)
      have kept : (s.flush d).core c = s.core c := by rw [State.core_flush, if_neg other]
      exact ⟨n, hn.trans (State.flushed_congr kept rfl rfl rfl)⟩

/-- The fetches stand in the trace in the order of the cores (R291). -/
theorem State.out_flushAll {s : State} {cs : List CoreId} (one : cs.Nodup) :
    (s.flushAll cs).out = (cs.reverse.flatMap fun c => s.refill c ((s.flushAll cs).core c)) ++ s.out := by
  induction cs generalizing s with
  | nil => rfl
  | cons d cs ih =>
    obtain ⟨hd, one⟩ := List.nodup_cons.1 one
    have first : (s.flush d).out = s.refill d ((s.flushAll (d :: cs)).core d) ++ s.out := by
      have : (s.flushAll (d :: cs)).core d = s.flushed d :=
        (State.core_flushAll_of_notMem hd).trans (by rw [State.core_flush, if_pos rfl])
      rw [this]; rfl
    have later : ∀ c ∈ cs.reverse, (s.flush d).refill c = s.refill c := by
      intro c hc
      have other : c ≠ d := fun e => hd (e ▸ List.mem_reverse.1 hc)
      funext k
      simp only [State.refill, State.core_flush, if_neg other]
    calc (s.flushAll (d :: cs)).out
        = (cs.reverse.flatMap fun c => (s.flush d).refill c ((s.flushAll (d :: cs)).core c)) ++ (s.flush d).out := ih one
      _ = (cs.reverse.flatMap fun c => s.refill c ((s.flushAll (d :: cs)).core c))
            ++ (s.refill d ((s.flushAll (d :: cs)).core d) ++ s.out) := by
          rw [first, List.flatMap_congr fun c hc => congrFun (later c hc) _]
      _ = _ := by simp [List.flatMap_append]

/-- The five cores in the order in which the reset sequence flushes them (R291). -/
def resetOrder : List CoreId := [0, 1, 2, 3, 4]

theorem mem_resetOrder (c : CoreId) : c ∈ resetOrder := by revert c; decide

theorem nodup_resetOrder : resetOrder.Nodup := by decide

/-- The reset sequence is the cold start, the flushes in order, and an unspecified response (R291). -/
theorem State.resetSequence_eq (s : State) : s.resetSequence = (s.coldStart.flushAll resetOrder).respOpen := by
  simp only [State.resetSequence, State.flushAll, resetOrder, List.foldl]

/-- The reset sequence is the cold start in all but contexts, outputs, response and count of free values (R291). -/
theorem State.resetSequence_frame (s : State) :
    ∃ k o r n, s.resetSequence = { s.coldStart with cores := k, out := o, resp := r, freeCount := n } := by
  obtain ⟨k, o, n, e⟩ := SameButCores.flushAll (SameButCores.refl s.coldStart) resetOrder
  exact ⟨k, o, _, _, by rw [s.resetSequence_eq, e]; rfl⟩

/-- The contexts after the reset sequence. -/
theorem State.core_resetSequence (s : State) (c : CoreId) :
    ∃ n, s.resetSequence.core c = State.flushed { s.coldStart with freeCount := n } c := by
  rw [s.resetSequence_eq, State.core_congr (State.respOpen_cores _)]
  exact State.core_flushAll_of_mem nodup_resetOrder (mem_resetOrder c)

/-- The fetches of the reset sequence. -/
theorem State.out_resetSequence (s : State) :
    s.resetSequence.out =
      (resetOrder.reverse.flatMap fun c => s.coldStart.refill c (s.resetSequence.core c)) ++ s.out := by
  have kept : ∀ c, s.resetSequence.core c = (s.coldStart.flushAll resetOrder).core c := by
    intro c
    rw [s.resetSequence_eq, State.core_congr (State.respOpen_cores _)]
  simp only [kept]
  rw [s.resetSequence_eq, State.respOpen_out]
  exact State.out_flushAll nodup_resetOrder

end Sys2Proof.Machine
end

section
/-! SUPPORT. The invariant of the clock and the queue: what the moves, a rebase, the reset sequence and every other step
make of it. -/

namespace Sys2Proof.Machine

/-! ## What the invariant says in numbers -/

/-- The constraints of R10 in numbers. -/
theorem Params.wf_bounds {p : Params} (h : p.wf = true) :
    p.rebaseHorizon.toNat < 9223372036854775808 ∧ p.irqLatency.toNat < p.rebaseHorizon.toNat ∧ 8 ≤ p.nTasks := by
  simp only [Params.wf, Bool.and_eq_true, decide_eq_true_eq, BitVec.le_def, BitVec.lt_def, BitVec.toNat_ofNat] at h
  omega

/-- Some event of a task is pending. -/
theorem exists_mem_of_pending {task : TaskId} {q : List Event} (h : pending task q = 1) : ∃ e ∈ q, e.task = task := by
  have : 0 < pending task q := by omega
  simpa [pending, List.countP_pos_iff] using this

/-- `now` is within the horizon: the pending `T_REBASE` is not in the past and is within it (R132 (a)). -/
theorem TimeInv.now_le_horizon {s : State} (inv : TimeInv s) : s.now ≤ s.params.rebaseHorizon := by
  obtain ⟨e, he, rebase⟩ := exists_mem_of_pending inv.oneRebase
  exact BitVec.le_trans (inv.notPast e he) (inv.horizon e he rebase)

/-- The invariant is about the parameters, `now`, the queue and the ready-at cycles only. -/
theorem TimeInv.congr {s t : State} (inv : TimeInv s) (params : t.params = s.params) (now : t.now = s.now)
    (queue : t.queue = s.queue) (ready : ∀ c, (t.core c).readyAt = (s.core c).readyAt) : TimeInv t where
  params := params ▸ inv.params
  sorted := queue ▸ inv.sorted
  notPast := by rw [queue, now]; exact inv.notPast
  oneRebase := queue ▸ inv.oneRebase
  horizon := by rw [queue, params]; exact inv.horizon
  bound := by rw [queue, params]; exact inv.bound
  ready := by intro c; rw [ready c, now]; exact inv.ready c

theorem TimeInv.of_same {s t : State} (inv : TimeInv s) (k : SameClockwork s t) : TimeInv t :=
  inv.congr k.params k.now k.queue fun c => by rw [State.core_congr k.cores c]

/-- A context replaced by one that is ready at the same cycle. -/
theorem State.readyAt_setCore {s : State} {c : CoreId} {k : CpuContext} (h : k.readyAt = (s.core c).readyAt)
    (d : CoreId) : ((s.setCore c k).core d).readyAt = (s.core d).readyAt := by
  rw [State.core_setCore]
  split
  · subst d; exact h
  · rfl

/-! ## Moves -/

/-- An event other than `T_REBASE`, of a bound task, inserted without overflow. -/
theorem TimeInv.schedule {s : State} (inv : TimeInv s) {task : TaskId} {delay : Cycle} (other : task ≠ 0#8)
    (bound : task.toNat < s.params.nTasks) (fits : s.now.toNat + delay.toNat < 18446744073709551616) :
    TimeInv (s.schedule task delay) where
  params := inv.params
  sorted := sorted_insertEvent inv.sorted
  notPast := by
    intro x hx
    rcases mem_insertEvent.1 hx with rfl | hx
    · simp only [State.schedule_now, BitVec.le_def, BitVec.toNat_add]
      omega
    · exact inv.notPast x hx
  oneRebase := by
    rw [State.schedule_queue, pending_insertEvent, inv.oneRebase, if_neg other]
  horizon := by
    intro x hx rebase
    rcases mem_insertEvent.1 hx with rfl | hx
    · exact absurd rebase other
    · exact inv.horizon x hx rebase
  bound := by
    intro x hx
    rcases mem_insertEvent.1 hx with rfl | hx
    · exact bound
    · exact inv.bound x hx
  ready := inv.ready

/-- A delivery task has a TaskId from 3 to 7 (R93). -/
theorem toNat_deliverTask (c : CoreId) : (deliverTask c).toNat = 3 + c.val := by
  revert c; decide

/-- No delivery is a rebase. -/
theorem deliverTask_ne_zero (c : CoreId) : deliverTask c ≠ 0#8 := by
  revert c; decide

theorem TimeInv.kick {s : State} (inv : TimeInv s) (c : CoreId) : TimeInv (s.kick c) := by
  obtain ⟨horizon, latency, tasks⟩ := Params.wf_bounds inv.params
  have now := BitVec.le_def.1 inv.now_le_horizon
  have task := toNat_deliverTask c
  unfold State.kick
  split
  · exact inv
  · have scheduled : TimeInv (s.schedule (deliverTask c) s.params.irqLatency) :=
      inv.schedule (deliverTask_ne_zero c) (by omega) (by omega)
    exact scheduled.congr rfl rfl rfl fun _ => rfl

/-- The tasks that are legal on the port (R123). -/
theorem legalTask_cases {n : Nat} {task : TaskId} (h : legalTask n task = true) :
    task.toNat = 1 ∨ task.toNat = 2 ∨ (8 ≤ task.toNat ∧ task.toNat < n) := by
  simp only [legalTask, Bool.or_eq_true, Bool.and_eq_true, decide_eq_true_eq, BitVec.le_def, ← BitVec.toNat_inj,
    BitVec.toNat_ofNat] at h
  omega

/-- What words do keeps the invariant. -/
theorem Moves.timeInv {s t : State} (m : Moves s t) (inv : TimeInv s) : TimeInv t := by
  induction m with
  | refl => exact inv
  | quiet _ k ih => exact ih.congr k.params k.now k.queue fun c => by rw [State.core_congr k.cores c]
  | context _ c k _ ready ih => exact ih.congr rfl rfl rfl (State.readyAt_setCore ready)
  | kick _ c ih => exact ih.kick c
  | schedule _ task delay legal fits ih =>
    have range := legalTask_cases legal
    have tasks := (Params.wf_bounds ih.params).2.2
    refine ih.schedule ?_ (by omega) fits
    rintro rfl
    simp at range
  | log _ e w ih => exact ih.congr rfl rfl rfl fun _ => rfl

/-! ## Tasks -/

/-- The head of the queue, if it is due, is due now (R127). -/
theorem TimeInv.due_eq_now {s : State} {e : Event} {q : List Event} (inv : TimeInv s) (n : s.queue = e :: q)
    (l : e.due ≤ s.now) : e.due = s.now :=
  BitVec.le_antisymm l (inv.notPast e (by simp [n]))

/-- The queue without its head, if that is no `T_REBASE`. -/
theorem TimeInv.popped {s : State} {e : Event} {q : List Event} (inv : TimeInv s) (n : s.queue = e :: q)
    (other : e.task ≠ 0#8) : TimeInv { s with queue := q } where
  params := inv.params
  sorted := (List.pairwise_cons.1 (n ▸ inv.sorted)).2
  notPast x hx := inv.notPast x (n ▸ List.mem_cons_of_mem e hx)
  oneRebase := by
    have := inv.oneRebase
    rwa [n, pending_cons, if_neg other] at this
  horizon x hx := inv.horizon x (n ▸ List.mem_cons_of_mem e hx)
  bound x hx := inv.bound x (n ▸ List.mem_cons_of_mem e hx)
  ready := inv.ready

/-- A rebase shifts no event to another task (R128). -/
theorem pending_map_due (task : TaskId) (f : Event → Cycle) (q : List Event) :
    pending task (q.map fun e => { e with due := f e }) = pending task q := by
  simp [pending, List.countP_map, Function.comp_def]

/-- The saturating subtraction of R128 in numbers. -/
theorem toNat_satSub (a b : Cycle) : (satSub a b).toNat = a.toNat - b.toNat := by
  unfold satSub
  split
  · exact BitVec.toNat_sub_of_le ‹_›
  · rename_i h
    rw [BitVec.le_def] at h
    simp only [BitVec.toNat_ofNat]
    omega

/-- `T_REBASE`, which has just been removed, rebases the axis and arms itself again at the horizon (R128, R132). -/
theorem TimeInv.rebased {s : State} {e : Event} {q : List Event} (inv : TimeInv s) (n : s.queue = e :: q)
    (rebase : e.task = 0#8) :
    TimeInv (State.schedule (State.rebase { s with queue := q }) 0#8 s.params.rebaseHorizon).respOpen := by
  have tail : ∀ x ∈ q, x ∈ s.queue := fun x hx => n ▸ List.mem_cons_of_mem e hx
  have none : pending 0#8 q = 0 := by
    have := inv.oneRebase
    rw [n, pending_cons, if_pos rebase] at this
    omega
  have shifted : ∀ x ∈ q.map (fun x => { x with due := x.due - s.now }),
      x.task ≠ 0#8 ∧ x.task.toNat < s.params.nTasks := by
    intro x hx
    obtain ⟨y, hy, rfl⟩ := List.mem_map.1 hx
    refine ⟨fun h => ?_, inv.bound y (tail y hy)⟩
    have := List.countP_eq_zero.1 none y hy
    simp_all
  have sorted : (q.map fun x => { x with due := x.due - s.now }).Pairwise fun a b => a.due ≤ b.due := by
    refine List.pairwise_map.2 ((List.pairwise_cons.1 (n ▸ inv.sorted)).2.imp_of_mem fun {a b} ha hb hab => ?_)
    have h1 := inv.notPast a (tail a ha)
    have h2 := inv.notPast b (tail b hb)
    rw [BitVec.le_def, BitVec.toNat_sub_of_le h1, BitVec.toNat_sub_of_le h2]
    exact Nat.sub_le_sub_right (BitVec.le_def.1 hab) _
  constructor
  case params => exact inv.params
  case sorted => exact sorted_insertEvent sorted
  case notPast => exact fun x _ => BitVec.le_def.2 (Nat.zero_le _)
  case oneRebase =>
    rw [State.respOpen_queue, State.schedule_queue, pending_insertEvent, if_pos rfl]
    exact congrArg (· + 1) ((pending_map_due _ _ _).trans none)
  case horizon =>
    intro x hx task
    rcases mem_insertEvent.1 hx with rfl | hx
    · exact BitVec.le_of_eq (BitVec.zero_add _)
    · exact absurd task (shifted x hx).1
  case bound =>
    intro x hx
    rcases mem_insertEvent.1 hx with rfl | hx
    · exact Nat.lt_of_lt_of_le (show 0 < 8 by decide) (Params.wf_bounds inv.params).2.2
    · exact (shifted x hx).2
  case ready =>
    intro c
    have old := inv.ready c
    have new : ((State.schedule (State.rebase { s with queue := q }) 0#8 s.params.rebaseHorizon).respOpen.core c).readyAt
        = satSub (s.core c).readyAt s.now := by
      simp [State.core, State.respOpen, State.schedule, State.rebase, CpuContext.rebase]
    rw [new, toNat_satSub]
    omega

/-- The dispatch of the head of the queue keeps the invariant. -/
theorem TimeInv.dispatched {s t : State} {e : Event} {q : List Event} (inv : TimeInv s) (n : s.queue = e :: q)
    (m : TaskTo { s with queue := q } e.task t) : TimeInv t := by
  generalize task : e.task = b at m
  have popped : b ≠ 0#8 → TimeInv { s with queue := q } := fun other => inv.popped n (task ▸ other)
  cases m with
  | rebase => exact inv.rebased n task
  | endFrame | coreConfig => exact (popped (by decide)).congr rfl rfl rfl fun _ => rfl
  | deliver c m => exact m.timeInv ((popped (deliverTask_ne_zero c)).congr rfl rfl rfl fun _ => rfl)
  | peripheral _ low _ =>
    refine (popped ?_).congr rfl rfl rfl fun _ => rfl
    rintro rfl
    exact absurd low (by decide)

/-! ## Every step -/

/-- The reset sequence makes the invariant hold. -/
theorem TimeInv.enterReset {s : State} (inv : TimeInv s) : TimeInv s.enterReset := by
  cases boot : s.bootImageOk
  · exact inv.of_same (State.enterReset_waiting boot)
  · rw [State.enterReset_running boot]
    have ready : ∀ c, (s.resetSequence.core c).readyAt = 0#64 := by
      intro c
      obtain ⟨n, e⟩ := s.core_resetSequence c
      rw [e, State.flushed_readyAt]
      exact congrArg CpuContext.readyAt (s.core_coldStart c)
    obtain ⟨k, o, r, n, e⟩ := s.resetSequence_frame
    have tasks := (Params.wf_bounds inv.params).2.2
    constructor
    case params => rw [e]; exact inv.params
    case sorted => rw [e]; exact List.pairwise_singleton _ _
    case notPast => rw [e]; exact fun _ _ => BitVec.le_def.2 (Nat.zero_le _)
    case oneRebase => rw [e]; rfl
    case horizon => rw [e]; simp [State.coldStart]
    case bound => rw [e]; simp [State.coldStart]; omega
    case ready => intro c; rw [ready c]; exact Nat.zero_le _

/-- The least ready-at cycle is taken within a bound (R153). -/
theorem State.leastReady_le (s : State) (bound : Cycle) (cs : List CoreId) : s.leastReady bound cs ≤ bound := by
  induction cs with
  | nil => exact BitVec.le_refl _
  | cons c cs ih =>
    unfold State.leastReady minCycle
    split
    · exact ih
    · split
      · exact BitVec.le_trans ‹_› ih
      · exact ih

theorem le_maxCycle_left (a b : Cycle) : a ≤ maxCycle a b := by
  unfold maxCycle
  split
  · assumption
  · exact BitVec.le_refl _

theorem maxCycle_le {a b c : Cycle} (ha : a ≤ c) (hb : b ≤ c) : maxCycle a b ≤ c := by
  unfold maxCycle
  split <;> assumption

/-- `now` advances, but not beyond the head of the queue (R132 (c)). -/
theorem TimeInv.withNow {s : State} {e : Event} {q : List Event} (inv : TimeInv s) (n : s.queue = e :: q) {now : Cycle}
    (later : s.now ≤ now) (head : now ≤ e.due) : TimeInv { s with now := now } where
  params := inv.params
  sorted := inv.sorted
  notPast := by
    intro x hx
    rw [show ({ s with now := now } : State).queue = e :: q from n] at hx
    rcases List.mem_cons.1 hx with rfl | hx
    · exact head
    · exact BitVec.le_trans head ((List.pairwise_cons.1 (n ▸ inv.sorted)).1 x hx)
  oneRebase := inv.oneRebase
  horizon := inv.horizon
  bound := inv.bound
  ready c := (inv.ready c).trans (Nat.add_le_add_right (BitVec.le_def.1 later) _)

/-- The charge of a cost within the executor's contract is at most `2 * (2^31 - 1)` cycles (R132 (d), R151). -/
theorem TimeInv.charge {s : State} (inv : TimeInv s) (c : CoreId) {cost : BitVec 32} (b : cost ≤ 0x7FFFFFFF#32) :
    TimeInv (s.charge c cost) where
  params := inv.params
  sorted := inv.sorted
  notPast := inv.notPast
  oneRebase := inv.oneRebase
  horizon := inv.horizon
  bound := inv.bound
  ready := by
    intro d
    rw [State.charge, State.core_setCore]
    split
    · have cycles : (weight c * cost.setWidth 64).toNat ≤ 4294967294 := by
        rw [BitVec.le_def] at b
        simp only [BitVec.toNat_ofNat] at b
        unfold weight
        split <;> simp only [BitVec.toNat_mul, BitVec.toNat_ofNat, BitVec.toNat_setWidth] <;> omega
      rw [BitVec.toNat_add]
      exact (Nat.mod_le _ _).trans (Nat.add_le_add_left cycles _)
    · exact inv.ready d

/-- Every effect keeps the invariant. -/
theorem Effect.timeInv {s t : State} (h : Effect s t) (inv : TimeInv s) : TimeInv t := by
  cases h with
  | same k => exact inv.of_same k
  | word m _ => exact m.timeInv inv
  | reset _ k => exact (inv.of_same k).enterReset
  | jump n l k =>
    have due := inv.due_eq_now n l
    exact (inv.withNow n (BitVec.le_of_eq due.symm) (BitVec.le_refl _)).of_same k
  | @advance e q _ n k =>
    have head : s.now ≤ e.due := inv.notPast e (by simp [n])
    exact (inv.withNow n (le_maxCycle_left _ _) (maxCycle_le head (s.leastReady_le _ _))).of_same k
  | @begin c _ _ _ k =>
    have advanced : TimeInv (s.setCore c (s.advanced c)) := inv.congr rfl rfl rfl (State.readyAt_setCore rfl)
    exact advanced.of_same k
  | charge cost _ b k => exact (inv.charge _ b).of_same k
  | event _ n _ m => exact inv.dispatched n (exec_taskTo m)

/-- Settles O52: each effect of a step keeps the invariant (`Effect.timeInv`). -/
theorem timeInvariantIsKept : Obligations.TimeInvariantIsKept :=
  fun _ _ inv h => (step_effect h).timeInv inv

end Sys2Proof.Machine
end

section
/-! SUPPORT. The delivery guards, the contexts and the clock along a step: what each effect makes of them. -/

namespace Sys2Proof.Machine

/-! ## The delivery guards (R50 I-4) -/

theorem GuardInv.congr {s t : State} (inv : GuardInv s) (queue : t.queue = s.queue) (guard : t.guard = s.guard) :
    GuardInv t := by
  intro c
  rw [queue, guard]
  exact inv c

/-- Each target has a delivery task of its own (R93). -/
theorem deliverTask_inj {c d : CoreId} (h : deliverTask c = deliverTask d) : c = d := by
  have := congrArg BitVec.toNat h
  rw [toNat_deliverTask, toNat_deliverTask] at this
  exact Fin.ext (by omega)

/-- What any guard is after one of them has been written. -/
theorem guard_set (v : Vector Bool 5) (c d : CoreId) (b : Bool) : (v.set c b)[d] = if d = c then b else v[d] := by
  simp only [Fin.getElem_fin, Vector.getElem_set, Fin.ext_iff, eq_comm]

/-- `Kick` sets a guard and schedules one delivery together, or does nothing (R202). -/
theorem GuardInv.kick {s : State} (inv : GuardInv s) (c : CoreId) : GuardInv (s.kick c) := by
  unfold State.kick
  split
  · exact inv
  · rename_i clear
    intro d
    have before := inv d
    show pending (deliverTask d) (insertEvent ⟨deliverTask c, s.now + s.params.irqLatency⟩ s.queue) =
      if (s.guard.set c true)[d] = true then 1 else 0
    rw [pending_insertEvent, guard_set, before]
    by_cases same : d = c
    · subst d
      simp [clear]
    · have other : deliverTask c ≠ deliverTask d := fun e => same (deliverTask_inj e).symm
      simp [same, other]

/-- An event that is no delivery changes no guard and no number of pending deliveries. -/
theorem GuardInv.schedule {s : State} (inv : GuardInv s) {task : TaskId} (other : ∀ c, task ≠ deliverTask c)
    (delay : Cycle) : GuardInv (s.schedule task delay) := by
  intro c
  rw [State.schedule_queue, pending_insertEvent, if_neg (other c), State.schedule_guard]
  exact inv c

theorem Moves.guardInv {s t : State} (m : Moves s t) (inv : GuardInv s) : GuardInv t := by
  induction m with
  | refl => exact inv
  | quiet _ k ih => exact ih.congr k.queue k.guard
  | context _ c k _ _ ih => exact ih.congr rfl rfl
  | kick _ c ih => exact ih.kick c
  | schedule _ task delay legal _ ih =>
    refine ih.schedule (fun c => ?_) delay
    rintro rfl
    have range := legalTask_cases legal
    rw [toNat_deliverTask] at range
    omega
  | log _ e w ih => exact ih.congr rfl rfl

/-- A head of the queue that is no delivery is removed. -/
theorem GuardInv.popped {s : State} {e : Event} {q : List Event} (inv : GuardInv s) (n : s.queue = e :: q)
    (other : ∀ c, e.task ≠ deliverTask c) : GuardInv { s with queue := q } := by
  intro c
  have before := inv c
  rwa [n, pending_cons, if_neg (other c)] at before

/-- A delivery is removed and the guard of its target is cleared (R205). -/
theorem GuardInv.delivered {s : State} {e : Event} {q : List Event} {c : CoreId} (inv : GuardInv s)
    (n : s.queue = e :: q) (task : e.task = deliverTask c) : GuardInv (State.clearGuard { s with queue := q } c) := by
  intro d
  have before := inv d
  rw [n, pending_cons, task] at before
  show pending (deliverTask d) q = if (s.guard.set c false)[d] = true then 1 else 0
  rw [guard_set]
  by_cases same : d = c
  · subst d
    simp only [↓reduceIte, Bool.false_eq_true] at before ⊢
    split at before <;> omega
  · have other : deliverTask c ≠ deliverTask d := fun e => same (deliverTask_inj e).symm
    simpa [same, other] using before

theorem GuardInv.dispatched {s t : State} {e : Event} {q : List Event} (inv : GuardInv s) (n : s.queue = e :: q)
    (m : TaskTo { s with queue := q } e.task t) : GuardInv t := by
  generalize task : e.task = b at m
  have popped : (∀ c, b ≠ deliverTask c) → GuardInv { s with queue := q } :=
    fun other => inv.popped n (task ▸ other)
  cases m with
  | rebase =>
    have other : ∀ c, 0#8 ≠ deliverTask c := by decide
    have shifted : GuardInv (State.rebase { s with queue := q }) := by
      intro c
      exact (pending_map_due _ _ _).trans (popped other c)
    exact (shifted.schedule other _).congr rfl rfl
  | endFrame | coreConfig => exact (popped (by decide)).congr rfl rfl
  | deliver c m => exact m.guardInv (inv.delivered n task)
  | peripheral _ low _ =>
    refine (popped fun c => ?_).congr rfl rfl
    rintro rfl
    rw [toNat_deliverTask] at low
    omega

/-- After the reset sequence no delivery is pending and no guard is set (R49). -/
theorem GuardInv.enterReset {s : State} (inv : GuardInv s) : GuardInv s.enterReset := by
  cases boot : s.bootImageOk
  · have k := State.enterReset_waiting boot
    exact inv.congr k.queue k.guard
  · rw [State.enterReset_running boot]
    obtain ⟨k, o, r, n, e⟩ := s.resetSequence_frame
    have none : ∀ c, pending (deliverTask c) [⟨0#8, s.params.rebaseHorizon⟩] = 0 := by
      intro c
      have other : 0#8 ≠ deliverTask c := (deliverTask_ne_zero c).symm
      simp [pending, other]
    rw [e]
    intro c
    simpa [State.coldStart] using none c

theorem Effect.guardInv {s t : State} (h : Effect s t) (inv : GuardInv s) : GuardInv t := by
  cases h with
  | same k | jump _ _ k | advance _ k | begin _ k | charge _ _ _ k => exact inv.congr k.queue k.guard
  | word m _ => exact m.guardInv inv
  | reset _ k => exact (inv.congr k.queue k.guard).enterReset
  | event _ n _ m => exact inv.dispatched n (exec_taskTo m)

/-- Settles O53: each effect of a step keeps the guards (`Effect.guardInv`). -/
theorem guardInvariantIsKept : Obligations.GuardInvariantIsKept :=
  fun _ _ inv h => (step_effect h).guardInv inv

/-! ## The contexts (R31, R35, R75) -/

theorem ContextsOk.of_cores {s t : State} (ok : ContextsOk s) (same : t.cores = s.cores) : ContextsOk t := by
  intro c
  rw [State.core_congr same c]
  exact ok c

theorem ContextsOk.setCore {s : State} (ok : ContextsOk s) {c : CoreId} {k : CpuContext} (hk : ContextOk k) :
    ContextsOk (s.setCore c k) := by
  intro d
  rw [State.core_setCore]
  split
  · exact hk
  · exact ok d

/-- A good context is one whatever cycle it is ready at. -/
theorem ContextOk.withReadyAt {k : CpuContext} (ok : ContextOk k) (r : Cycle) : ContextOk { k with readyAt := r } :=
  ⟨ok.mode, ok.aligned, ok.narrow⟩

theorem Moves.contextsOk {s t : State} (m : Moves s t) (inv : ContextsOk s) : ContextsOk t := by
  induction m with
  | refl => exact inv
  | quiet _ k ih => exact ih.of_cores k.cores
  | context _ c k ok _ ih => exact ih.setCore (ok (ih c))
  | kick _ c ih => exact ih.of_cores (State.kick_cores _ c)
  | schedule _ _ _ _ _ ih => exact ih.of_cores rfl
  | log _ e w ih => exact ih.of_cores rfl

theorem TaskTo.contextsOk {s t : State} {b : TaskId} (m : TaskTo s b t) (inv : ContextsOk s) : ContextsOk t := by
  cases m with
  | rebase =>
    intro c
    have shifted : (s.rebase.schedule 0#8 s.params.rebaseHorizon).respOpen.core c = (s.core c).rebase s.now := by
      simp [State.core, State.respOpen, State.schedule, State.rebase]
    rw [shifted]
    exact (inv c).withReadyAt _
  | endFrame | coreConfig | peripheral => exact inv.of_cores rfl
  | deliver c m => exact m.contextsOk (inv.of_cores rfl)

/-- After the reset sequence every context is good, whatever the boot addresses: the flushes align them (R149, R291). -/
theorem ContextsOk.enterReset {s : State} (inv : ContextsOk s) : ContextsOk s.enterReset := by
  cases boot : s.bootImageOk
  · exact inv.of_cores (State.enterReset_waiting boot).cores
  · rw [State.enterReset_running boot]
    intro c
    obtain ⟨n, e⟩ := s.core_resetSequence c
    rw [e]
    refine State.flushed_ok ?_
    have supervisor : (s.coldStart.core c).status = 0xD3#32 := by rw [s.core_coldStart]; rfl
    show modeOf (s.coldStart.core c).status ∈ modes
    rw [supervisor]
    decide

theorem Effect.contextsOk {s t : State} (h : Effect s t) (inv : ContextsOk s) : ContextsOk t := by
  cases h with
  | same k | jump _ _ k | advance _ k => exact inv.of_cores k.cores
  | word m _ => exact m.contextsOk inv
  | reset _ k => exact (inv.of_cores k.cores).enterReset
  | begin _ k => exact (inv.setCore (State.advanced_ok (inv _))).of_cores k.cores
  | charge _ _ _ k => exact (inv.setCore ((inv _).withReadyAt _)).of_cores k.cores
  | event _ _ _ m => exact (exec_taskTo m).contextsOk (inv.of_cores rfl)

/-- Settles O54: each effect of a step keeps the contexts (`Effect.contextsOk`). -/
theorem contextInvariantIsKept : Obligations.ContextInvariantIsKept :=
  fun _ _ inv h => (step_effect h).contextsOk inv

/-! ## The clock (R20) -/

/-- Words move neither the clock nor the flags of the engine. -/
theorem Moves.engine_eq {s t : State} (m : Moves s t) :
    t.now = s.now ∧ t.running = s.running ∧ t.fourCore = s.fourCore := by
  induction m with
  | refl => exact ⟨rfl, rfl, rfl⟩
  | quiet _ k ih =>
    obtain ⟨now, running, fourCore⟩ := ih
    exact ⟨k.now.trans now, k.running.trans running, k.fourCore.trans fourCore⟩
  | context _ _ _ _ _ ih => exact ih
  | kick _ c ih => unfold State.kick; split <;> exact ih
  | schedule _ _ _ _ _ ih => exact ih
  | log _ _ _ ih => exact ih

theorem Moves.now_eq {s t : State} (m : Moves s t) : t.now = s.now := m.engine_eq.1

theorem Moves.running_eq {s t : State} (m : Moves s t) : t.running = s.running := m.engine_eq.2.1

theorem Moves.fourCore_eq {s t : State} (m : Moves s t) : t.fourCore = s.fourCore := m.engine_eq.2.2

/-- No task but `T_REBASE` moves the clock. -/
theorem TaskTo.now_eq {s t : State} {b : TaskId} (m : TaskTo s b t) (other : b ≠ 0#8) : t.now = s.now := by
  cases m with
  | rebase => exact absurd rfl other
  | endFrame | coreConfig | peripheral => rfl
  | deliver c m => exact m.now_eq

/-- Settles O57: of the effects only the reset sequence and the dispatch of `T_REBASE` make `now` smaller; a jump is to a
head that is due now. -/
theorem clockIsMonotonic : Obligations.ClockIsMonotonic := by
  intro s t inv h back
  have forward : ¬ s.now ≤ t.now := BitVec.not_le.2 back
  cases step_effect h with
  | same k | begin _ k | charge _ _ _ k => exact absurd (BitVec.le_of_eq k.now.symm) forward
  | word m _ => exact absurd (BitVec.le_of_eq m.now_eq.symm) forward
  | reset r _ => exact .inr r
  | jump n l k => exact absurd (BitVec.le_of_eq (k.now.trans (inv.due_eq_now n l)).symm) forward
  | advance _ k => exact absurd (k.now ▸ le_maxCycle_left _ _) forward
  | @event e q _ ph n l m =>
    refine .inl ⟨ph, e, q, n, ?_, l⟩
    by_contra other
    exact forward (BitVec.le_of_eq ((exec_taskTo m).now_eq other).symm)

/-! ## Whose step changes a context (R47) -/

/-- Settles O59: the effects name the core whose context each of them changes, and for an event
`exec_task_sameOwn` does. -/
theorem contextIsMutatedByItsOwnStep : Obligations.ContextIsMutatedByItsOwnStep := by
  intro s t c h changed
  have kept : ¬ t.core c = s.core c := fun e => changed (by rw [e]; rfl)
  have others : ∀ {d : CoreId} {k : CpuContext}, t.cores = (s.setCore d k).cores → c = d := by
    intro d k e
    by_contra other
    exact kept ((State.core_congr e c).trans (s.core_setCore_ne k other))
  cases step_effect h with
  | same k | jump _ _ k | advance _ k => exact absurd (State.core_congr k.cores c) kept
  | word _ own => exact .inl ((own c).resolve_right changed)
  | reset r _ => exact .inr (.inr (.inr r))
  | @begin d cs _ ph k => exact .inr (.inl ⟨cs, others k.cores ▸ ph⟩)
  | @charge d opcode cs _ _ ph _ k => exact .inl ⟨opcode, cs, others k.cores ▸ ph⟩
  | @event e q _ ph n _ m =>
    refine .inr (.inr (.inl ⟨ph, e, q, n, ?_⟩))
    by_contra neither
    obtain ⟨hd, h0⟩ := not_or.1 neither
    have own := exec_task_sameOwn m hd h0
    exact changed own

end Sys2Proof.Machine
end

section
/-! SUPPORT. The error log and the engine's flags: what the moves and the tasks make of `err_flags`, `running` and
`four_core`. -/

namespace Sys2Proof.Machine

/-! ## The error log (R45) -/

/-- The log of `t` holds every error that the log of `s` holds, and no reserved bit unless that one does. -/
def LogGrows (s t : State) : Prop := s.errFlags &&& t.errFlags = s.errFlags ∧ (LogOk s → LogOk t)

theorem LogGrows.of_errFlags {s t : State} (same : t.errFlags = s.errFlags) : LogGrows s t := by
  unfold LogGrows LogOk
  rw [same]
  exact ⟨BitVec.and_self, id⟩

theorem LogGrows.trans {s t u : State} (h : LogGrows s t) (k : LogGrows t u) : LogGrows s u := by
  refine ⟨?_, k.2 ∘ h.2⟩
  calc s.errFlags &&& u.errFlags
      = s.errFlags &&& t.errFlags &&& u.errFlags := by rw [h.1]
    _ = s.errFlags &&& (t.errFlags &&& u.errFlags) := BitVec.and_assoc _ _ _
    _ = s.errFlags := by rw [k.1, h.1]

/-- An error's bit is none of the reserved bits 15:11 (R45). -/
theorem Err.bit_not_reserved (e : Err) : (1#16 <<< e.bit).extractLsb' 11 5 = 0#5 := by
  cases e <;> rfl

theorem LogGrows.reject (s : State) (e : Err) (w : OpWord) : LogGrows s (s.reject e w) := by
  unfold LogGrows LogOk
  rw [State.reject_errFlags, withBit]
  constructor
  · ext i
    simp only [BitVec.getElem_and, BitVec.getElem_or]
    cases s.errFlags[i] <;> rfl
  · intro ok
    rw [BitVec.extractLsb'_or, ok, e.bit_not_reserved]
    rfl

theorem Moves.logGrows {s t : State} (m : Moves s t) : LogGrows s t := by
  induction m with
  | refl => exact .of_errFlags rfl
  | quiet _ k ih => exact ih.trans (.of_errFlags k.errFlags)
  | context _ c k _ _ ih => exact ih.trans (.of_errFlags rfl)
  | kick _ c ih => exact ih.trans (.of_errFlags (by unfold State.kick; split <;> rfl))
  | schedule _ task delay _ _ ih => exact ih.trans (.of_errFlags rfl)
  | log _ e w ih => exact ih.trans (.reject _ e w)

theorem TaskTo.logGrows {s t : State} {b : TaskId} (m : TaskTo s b t) : LogGrows s t := by
  cases m with
  | rebase | endFrame | coreConfig | peripheral => exact .of_errFlags rfl
  | deliver c m => exact m.logGrows

/-- Every operation of format TASK that answers a next state is the dispatch of some task. -/
theorem exec_task_taskTo {i : Instr} {s t : State} (hi : i.format = .task) (h : exec i s = .next t) :
    ∃ b, TaskTo s b t := by
  cases i <;> try (exfalso; simp [Instr.format] at hi; done)
  case tPeripheral task =>
    simp only [exec, execTPeripheral] at h
    split at h
    · rename_i range; cases h; exact ⟨task, .peripheral task range.1 range.2⟩
    · cases h
  case tRebase => exact ⟨0#8, exec_taskTo h⟩
  case tEndFrame => exact ⟨1#8, exec_taskTo h⟩
  case tCoreConfig => exact ⟨2#8, exec_taskTo h⟩
  case tIrqDeliver0 => exact ⟨3#8, exec_taskTo h⟩
  case tIrqDeliver1 => exact ⟨4#8, exec_taskTo h⟩
  case tIrqDeliver2 => exact ⟨5#8, exec_taskTo h⟩
  case tIrqDeliver3 => exact ⟨6#8, exec_taskTo h⟩
  case tIrqDeliver4 => exact ⟨7#8, exec_taskTo h⟩

/-- Only `RUN` and `RESET` are for the host alone (R91). -/
theorem Instr.hostOnly_cases {i : Instr} (h : i.hostOnly = true) : i = .run ∨ i = .reset := by
  cases i <;> simp [Instr.hostOnly] at h ⊢

/-- Settles O12: commands and CPU words are moves, of which only the log of an error writes the flags, and no task
does. -/
theorem errorFlagsAreSticky : Obligations.ErrorFlagsAreSticky := by
  intro i s t notReset h
  show LogGrows s t
  cases hi : i.format with
  | task => obtain ⟨_, m⟩ := exec_task_taskTo hi h; exact m.logGrows
  | cpu => exact (exec_moves_cpu hi h).logGrows
  | cmd =>
    cases hh : i.hostOnly with
    | false => exact (exec_moves_cmd hi hh h).logGrows
    | true =>
      obtain rfl := (Instr.hostOnly_cases hh).resolve_right notReset
      cases h
      exact .of_errFlags rfl

/-! ## The engine's flags (R24, R25) -/

/-- The next step dispatches the task `b`, if its event is due. -/
def State.Dispatching (s : State) (b : TaskId) : Prop :=
  s.phase = .eventPhase ∧ ∃ e q, s.queue = e :: q ∧ e.task = b

/-- From `s` to `t` the flags of the engine are written only by their tasks and by the reset sequence. -/
structure FlagsWritten (s t : State) : Prop where
  /-- R24, R91 (c). -/
  idle : IdleStopped s → IdleStopped t
  /-- R157. -/
  stopped : s.running = true → t.running = false → s.Dispatching 1#8 ∨ s.Resetting
  /-- R158. -/
  configured : t.fourCore ≠ s.fourCore → s.Dispatching 2#8 ∨ s.Resetting

/-- Neither flag is written, and the engine does not become idle. -/
theorem FlagsWritten.of_same {s t : State} (running : t.running = s.running) (fourCore : t.fourCore = s.fourCore)
    (busy : t.phase = .idle → s.phase = .idle) : FlagsWritten s t where
  idle stopped ph := running.trans (stopped (busy ph))
  stopped on off := absurd (running.symm.trans off) (by simp [on])
  configured changed := absurd fourCore changed

/-- What words do writes no flag and leaves the phase. -/
theorem FlagsWritten.of_moves {s t : State} (m : Moves s t) : FlagsWritten s t :=
  .of_same m.running_eq m.fourCore_eq fun ph => m.phase_eq ▸ ph

theorem FlagsWritten.of_notes {s t u : State} (n : SameButNotes t u) (running : t.running = s.running)
    (fourCore : t.fourCore = s.fourCore) (phase : t.phase = s.phase) : FlagsWritten s u := by
  obtain ⟨_, _, rfl⟩ := n
  exact .of_same running fourCore fun ph => phase ▸ ph

/-- The reset sequence stops the engine, or waits outside the idle phase (R49, R292). -/
theorem State.idleStopped_enterReset (s : State) : IdleStopped s.enterReset := by
  intro ph
  cases boot : s.bootImageOk
  · rw [State.enterReset, if_neg (by simp [boot])] at ph
    cases ph
  · rw [State.enterReset_running boot]
    obtain ⟨_, _, _, _, e⟩ := s.resetSequence_frame
    rw [e]
    rfl

theorem FlagsWritten.of_reset {s u : State} (r : s.Resetting) : FlagsWritten s u.enterReset where
  idle _ := u.idleStopped_enterReset
  stopped _ _ := .inr r
  configured _ := .inr r

theorem FlagsWritten.of_event {s t : State} {e : Event} {q : List Event} (ph : s.phase = .eventPhase)
    (n : s.queue = e :: q) (m : TaskTo { s with queue := q } e.task t) : FlagsWritten s t := by
  generalize task : e.task = b at m
  have busy : s.phase = .idle → False := fun idle => by rw [ph] at idle; cases idle
  cases m with
  | rebase => exact .of_same rfl rfl id
  | endFrame =>
    exact ⟨fun _ _ => rfl, fun _ _ => .inl ⟨ph, e, q, n, task⟩, fun changed => absurd rfl changed⟩
  | coreConfig =>
    exact ⟨fun _ idle => (busy idle).elim, fun on off => absurd (on.symm.trans off) (by simp),
      fun _ => .inl ⟨ph, e, q, n, task⟩⟩
  | deliver c m => exact .of_same m.running_eq m.fourCore_eq fun idle => m.phase_eq ▸ idle
  | peripheral => exact .of_same rfl rfl fun idle => by cases idle

/-- Every step that answers a next state writes the flags as it should. -/
theorem step_flagsWritten {s t : State} (h : step s = .next t) : FlagsWritten s t := by
  cases step_goesTo h with
  | silent => exact .of_same rfl rfl id
  | waiting ph => exact .of_reset (.inr ph)
  | hostReset ph w => exact .of_reset (.inl ⟨ph, _, w⟩)
  | hostRun _ k =>
    obtain ⟨_, rfl⟩ := k
    exact ⟨fun _ idle => (by cases idle), fun _ off => (by cases off), fun changed => absurd rfl changed⟩
  | command i f o k m n => exact .of_moves (((Moves.of_same k.same).trans (exec_moves_cmd f o m)).notes n)
  | cpuWord i f _ _ m n => exact .of_moves ((exec_moves_cpu f m).notes n)
  | badWord w k n => exact .of_moves (((Moves.of_same k.same).log _ _).notes n)
  | yields _ r =>
    exact ⟨fun _ _ => r, fun on _ => absurd (r.symm.trans on) (by simp), fun changed => absurd rfl changed⟩
  | again | newPass | jump | skip | begin | advance | returns | unrecognized | eventsDone | callbackDone =>
    exact .of_same rfl rfl fun idle => by cases idle
  | reads _ _ _ k | writes _ _ _ _ _ k | callbackReads _ _ _ k | callbackWrites _ _ _ _ _ k =>
    exact .of_notes k rfl rfl rfl
  | event ph n _ m => exact .of_event ph n (exec_taskTo m)

/-- Settles O60, by `step_flagsWritten`. -/
theorem engineFlagsAreWrittenByTheirTasks : Obligations.EngineFlagsAreWrittenByTheirTasks := by
  intro s t h
  obtain ⟨idle, stopped, configured⟩ := step_flagsWritten h
  exact ⟨idle, stopped, configured⟩

end Sys2Proof.Machine
end

section
/-! SUPPORT. The memory accesses of a callback, the bank table, and the state after a reset. -/

namespace Sys2Proof.Machine

/-! ## A store and a load of the same width (R74) -/

/-- Two bytes of one value stand at two addresses. -/
theorem offset_inj {a : Word} {j k : Nat} (hj : j < 4) (hk : k < 4) :
    a + BitVec.ofNat 32 j = a + BitVec.ofNat 32 k ↔ j = k := by
  rw [BitVec.add_right_inj, ← BitVec.toNat_inj, BitVec.toNat_ofNat, BitVec.toNat_ofNat]
  omega

/-- Byte `k` of a store, `k` below the width, is byte `k` of the value. -/
theorem Memory.byteAt_store_same {m : List Host.Cell} (hm : Memory.wf m = true) (a : Word) (n : Width) (v : Word)
    {k : Nat} (hk : k < n.bytes.toNat) :
    Memory.byteAt (Memory.store m a n v) (a + BitVec.ofNat 32 k) = v.extractLsb' (8 * k) 8 := by
  have h0 := Memory.wf_storeByte hm a v 0
  have h1 := Memory.wf_storeByte h0 a v 1
  have h2 := Memory.wf_storeByte h1 a v 2
  have small : k < 4 := by cases n <;> simp [Width.bytes] at hk <;> omega
  have last : ∀ {m : List Host.Cell}, Memory.wf m = true → ∀ j < 4,
      Memory.byteAt (Memory.storeByte m a v j) (a + BitVec.ofNat 32 k) =
        if k = j then v.extractLsb' (8 * k) 8 else Memory.byteAt m (a + BitVec.ofNat 32 k) := by
    intro m hm j hj
    rw [Memory.byteAt_storeByte hm]
    simp only [offset_inj small hj]
    split
    · subst k; rfl
    · rfl
  cases n <;> simp only [Width.bytes, BitVec.toNat_ofNat] at hk <;> simp only [Memory.store]
  case byte => rw [last hm 0 (by decide), if_pos (by omega)]
  case half =>
    rw [last h0 1 (by decide), last hm 0 (by decide)]
    split
    · rfl
    · rw [if_pos (by omega)]
  case word =>
    rw [last h2 3 (by decide), last h1 2 (by decide), last h0 1 (by decide), last hm 0 (by decide)]
    split
    · rfl
    · split
      · rfl
      · split
        · rfl
        · rw [if_pos (by omega)]

/-- A load at the address of a store of the same width answers the value (R74). -/
theorem Memory.load_store {m : List Host.Cell} (hm : Memory.wf m = true) (a : Word) (n : Width) (v : Word) :
    Memory.load (Memory.store m a n v) a n = n.trim v := by
  have byte := fun k hk => Memory.byteAt_store_same hm a n v (k := k) hk
  have first : Memory.byteAt (Memory.store m a n v) a = v.extractLsb' 0 8 := by
    simpa using byte 0 (by cases n <;> decide)
  cases n with
  | byte => rw [Memory.load, first]; rfl
  | half =>
    have second : Memory.byteAt (Memory.store m a .half v) (a + 1#32) = v.extractLsb' 8 8 := byte 1 (by decide)
    rw [Memory.load, first, second, BitVec.append_assoc,
      BitVec.extractLsb'_append_extractLsb'_eq_extractLsb' (by rfl)]
    rfl
  | word =>
    have second : Memory.byteAt (Memory.store m a .word v) (a + 1#32) = v.extractLsb' 8 8 := byte 1 (by decide)
    have third : Memory.byteAt (Memory.store m a .word v) (a + 2#32) = v.extractLsb' 16 8 := byte 2 (by decide)
    have fourth : Memory.byteAt (Memory.store m a .word v) (a + 3#32) = v.extractLsb' 24 8 := byte 3 (by decide)
    rw [Memory.load, first, second, third, fourth, BitVec.extractLsb'_append_extractLsb'_eq_extractLsb' (by rfl),
      BitVec.extractLsb'_append_extractLsb'_eq_extractLsb' (by rfl),
      BitVec.extractLsb'_append_extractLsb'_eq_extractLsb' (by rfl)]
    exact BitVec.extractLsb'_eq_self

/-- Settles O23: the three actions are those of `callbackStep`; what a store does to the bytes say `Memory.load_store`
and `Memory.byteAt_store_other`. -/
theorem callbackMemoryAccess : Obligations.CallbackMemoryAccess := by
  intro s task a n ph
  have step_eq : step s = s.callbackStep task := by simp only [step, State.transition, ph]
  refine ⟨fun act plain => ?read, fun act window => ?window, fun v act ok => ?store⟩
  case read =>
    have answer : s.externalAnswer a n = Memory.load s.mem a n := by simp [State.externalAnswer, plain]
    rw [step_eq, State.callbackStep, act]
    simp only [State.heard, State.externalRead, answer, plain, zext_eq_setWidth]
    rfl
  case window =>
    refine ⟨s.externalAnswer a n, ?_⟩
    rw [step_eq, State.callbackStep, act]
    simp only [State.heard, State.externalRead, window, if_true, zext_eq_setWidth]
  case store =>
    refine ⟨(s.externalWrite a n v).heard none, ?_, Memory.load_store ok a n v, fun b far => ?_, rfl⟩
    · rw [step_eq, State.callbackStep, act]
    · exact Memory.byteAt_store_other ok a n v b far

/-! ## The bank table (R31) -/

/-- The index under which a slot is a logical register. -/
def Slot.index : Slot → Nat
  | .normal i => i.val
  | .fiq i => 8 + i.val
  | .irq i | .svc i | .abt i | .und i => 13 + i.val
  | .pc => 15

/-- The bank a slot belongs to. -/
def Slot.owner : Slot → Bank
  | .normal _ | .pc => .normal
  | .fiq _ => .priv .fiq
  | .irq _ => .priv .irq
  | .svc _ => .priv .svc
  | .abt _ => .priv .abt
  | .und _ => .priv .und

theorem midSlot_eq (b : Bank) (i : Fin 5) :
    midSlot b i = if b = .priv .fiq then .fiq (i.castAdd 2) else .normal ⟨8 + i.val, by omega⟩ := by
  cases b with
  | normal => rfl
  | priv p => cases p <;> rfl

/-- The slots 8 to 12 are FIQ's own or those of all other banks. -/
theorem midSlot_eq_iff (b d : Bank) (i : Fin 5) :
    midSlot b i = midSlot d i ↔ (b = .priv .fiq ↔ d = .priv .fiq) := by
  rw [midSlot_eq, midSlot_eq]
  by_cases hb : b = .priv .fiq <;> by_cases hd : d = .priv .fiq <;> simp [hb, hd]

/-- The slots 13 and 14 of a bank are its own. -/
theorem owner_highSlot (b : Bank) (i : Fin 2) : (highSlot b i).owner = b := by
  cases b with
  | normal => rfl
  | priv p => cases p <;> rfl

theorem index_highSlot (b : Bank) (i : Fin 2) : (highSlot b i).index = 13 + i.val := by
  cases b with
  | normal => rfl
  | priv p =>
    cases p with
    | fiq => simp only [highSlot, Slot.index, Fin.val_natAdd]; omega
    | irq | svc | abt | und => rfl

/-- A logical register is stored in a slot of its own index, whatever the bank. -/
theorem index_phys (b : Bank) (i : BitVec 4) : (phys b i).index = i.toNat := by
  unfold phys
  split
  · rfl
  · split
    · rw [midSlot_eq]
      split <;> simp [Slot.index] <;> omega
    · split
      · rw [index_highSlot]
        simp only
        omega
      · have := i.isLt
        simp only [Slot.index]
        omega

/-- When the banks `b` and `d` share the register of an index: below 8 and at 15 always, from 8 to 12 unless exactly
one of them is FIQ, at 13 and 14 only if they are one bank. -/
theorem phys_eq_phys_iff (b d : Bank) (i : BitVec 4) :
    phys b i = phys d i ↔
      i.toNat < 8 ∨ i.toNat = 15 ∨ (i.toNat < 13 ∧ (b = .priv .fiq ↔ d = .priv .fiq)) ∨ b = d := by
  unfold phys
  split
  case isTrue low => simp [low]
  case isFalse low =>
    split
    case isTrue mid =>
      have top : i.toNat ≠ 15 := by omega
      simp only [midSlot_eq_iff, low, mid, top, true_and, false_or]
      exact ⟨.inl, fun h => h.elim id fun e => by rw [e]⟩
    case isFalse mid =>
      split
      case isTrue high =>
        have top : i.toNat ≠ 15 := by omega
        simp only [low, top, mid, false_and, false_or]
        exact ⟨fun e => by simpa [owner_highSlot] using congrArg Slot.owner e, fun e => by rw [e]⟩
      case isFalse high =>
        have top : i.toNat = 15 := by have := i.isLt; omega
        simp [top]

/-- The mode of a banked bank (R31). -/
def privMode : PrivBank → BitVec 5
  | .fiq => 0x11#5
  | .irq => 0x12#5
  | .svc => 0x13#5
  | .abt => 0x17#5
  | .und => 0x1B#5

theorem bankOf_eq_normal_iff (m : BitVec 5) : bankOf m = some .normal ↔ normalMode m := by
  unfold normalMode
  revert m
  decide

theorem bankOf_eq_priv_iff (m : BitVec 5) (p : PrivBank) : bankOf m = some (.priv p) ↔ m = privMode p := by
  cases p <;> revert m <;> decide

/-- Two modes have the same bank if they are the same, or both USR or SYS. -/
theorem bank_eq_iff {m n : BitVec 5} {b d : Bank} (hm : bankOf m = some b) (hn : bankOf n = some d) :
    b = d ↔ m = n ∨ (normalMode m ∧ normalMode n) := by
  constructor
  · rintro rfl
    cases b with
    | normal => exact .inr ⟨(bankOf_eq_normal_iff m).1 hm, (bankOf_eq_normal_iff n).1 hn⟩
    | priv p => exact .inl (((bankOf_eq_priv_iff m p).1 hm).trans ((bankOf_eq_priv_iff n p).1 hn).symm)
  · rintro (rfl | ⟨um, un⟩)
    · exact Option.some.inj (hm.symm.trans hn)
    · rw [(bankOf_eq_normal_iff m).2 um] at hm
      rw [(bankOf_eq_normal_iff n).2 un] at hn
      exact (Option.some.inj hm).symm.trans (Option.some.inj hn)

theorem bank_eq_fiq_iff {m : BitVec 5} {b : Bank} (hm : bankOf m = some b) : b = .priv .fiq ↔ m = 0x11#5 := by
  rw [← Option.some_inj, ← hm]
  exact bankOf_eq_priv_iff m .fiq

/-- Settles O25: a slot knows its index (`index_phys`), and for one index the banks decide (`phys_eq_phys_iff`). -/
theorem bankTable : Obligations.BankTable := by
  refine ⟨fun m n b d hm hn i j => ?registers, fun m => ?table⟩
  case registers =>
    unfold sameRegister
    by_cases same : i = j
    · subst j
      rw [phys_eq_phys_iff, bank_eq_iff hm hn, bank_eq_fiq_iff hm, bank_eq_fiq_iff hn]
      simp
    · refine iff_of_false (fun e => same ?_) fun e => same e.1
      have := congrArg Slot.index e
      rw [index_phys, index_phys] at this
      exact BitVec.eq_of_toNat_eq this
  case table => rw [← validMode_iff, validMode, Option.isSome_iff_exists]

end Sys2Proof.Machine
end

section
/-! SUPPORT. The state after power-on and after `RESET`: the table of R49, the ten fetches, and the invariants. -/

namespace Sys2Proof.Machine

/-! ## The contexts after a reset -/

/-- The boot address of a core: `BOOT_PC[c] & ~3` (R291). -/
theorem bootEntry_eq (p : Params) (c : CoreId) : bootEntry p c = BitVec.ofNat 32 (p.bootPc[c].toNat / 4 * 4) :=
  and_high_mask _ 2 _ (by decide)

/-- What the table of R49 says of the context of core `c`. -/
def ResetContext (p : Params) (c : CoreId) (k : CpuContext) : Prop :=
  k.readyAt = 0#64 ∧ k.status = 0xD3#32 ∧ k.pc = BitVec.ofNat 32 (p.bootPc[c].toNat / 4 * 4) + 4#32
    ∧ k.excBase = p.excBaseReset[c] ∧ k.halted = if c = 2 ∨ c = 3 then 0x01#8 else 0x00#8

/-- The status of R49 selects the full-width encoding (R33). -/
theorem compact_resetStatus : compact 0xD3#32 = false := by decide

/-- The contexts of the power-on state. -/
theorem State.core_resetWith (p : Params) (m : List Host.Cell) (c : CoreId) :
    (State.resetWith p m).core c = CpuContext.reset p m c := by
  match c with
  | 0 | 1 | 2 | 3 | 4 => rfl

theorem resetContext_resetWith (p : Params) (m : List Host.Cell) (c : CoreId) :
    ResetContext p c ((State.resetWith p m).core c) := by
  rw [State.core_resetWith]
  exact ⟨rfl, rfl, congrArg (· + 4#32) (bootEntry_eq p c), rfl, rfl⟩

/-- The reset sequence fetches full-width opcodes: T is 0 in the status of R49 (R105). -/
theorem State.fetchWidth_coldStart (s : State) (c : CoreId) : fetchWidth (s.coldStart.core c).status = .word := by
  rw [s.core_coldStart]
  show fetchWidth 0xD3#32 = .word
  rw [fetchWidth, compact_resetStatus]
  rfl

/-- The reset sequence fetches from the boot address (R291). -/
theorem State.flushAddr_coldStart (s : State) (c : CoreId) :
    (s.coldStart.core c).flushAddr = BitVec.ofNat 32 (s.params.bootPc[c].toNat / 4 * 4) := by
  rw [CpuContext.flushAddr_eq, s.core_coldStart]
  show alignDown 0xD3#32 s.params.bootPc[c] = _
  rw [alignDown, compact_resetStatus]
  rfl

theorem resetContext_resetSequence (s : State) (c : CoreId) : ResetContext s.params c (s.resetSequence.core c) := by
  obtain ⟨n, e⟩ := s.core_resetSequence c
  have pc : (s.resetSequence.core c).pc = BitVec.ofNat 32 (s.params.bootPc[c].toNat / 4 * 4) + 4#32 := by
    rw [e, ← s.flushAddr_coldStart]
    show (s.coldStart.core c).flushAddr + (fetchWidth (s.coldStart.core c).status).bytes = _
    rw [s.fetchWidth_coldStart]
    rfl
  have cold : (State.core { s.coldStart with freeCount := n } c) = CpuContext.coldStart s.params _ c :=
    s.core_coldStart c
  refine ⟨?_, ?_, pc, ?_, ?_⟩ <;> rw [e]
  · rw [State.flushed_readyAt, cold]; rfl
  · rw [State.flushed_status, cold]; rfl
  · rw [State.flushed_excBase, cold]; rfl
  · rw [State.flushed_halted, cold]; rfl

/-! ## The reset table (R49) -/

/-- The cold start with good contexts is as the table says. -/
theorem resetTable_of_coldStart {s t : State}
    (frame : ∃ k o r n, t = { s.coldStart with cores := k, out := o, resp := r, freeCount := n })
    (contexts : ∀ c, ResetContext t.params c (t.core c)) : ResetTable t := by
  obtain ⟨k, o, r, n, rfl⟩ := frame
  refine ⟨rfl, rfl, rfl, rfl, contexts, rfl, rfl, rfl, fun c => ?_, fun y => ?_, fun c => ?_, fun e => ?_, rfl, rfl, rfl, rfl⟩
  all_goals simp [State.coldStart]

/-- Settles O49: the power-on state is its own cold start, but for contexts and trace. -/
theorem powerOnStateIsTheResetTable : Obligations.PowerOnStateIsTheResetTable := by
  refine ⟨rfl, fun p m => ⟨?table, rfl, rfl, fun c => ?pipe⟩⟩
  case table =>
    exact resetTable_of_coldStart (s := State.resetWith p m) ⟨_, _, _, _, rfl⟩ (resetContext_resetWith p m)
  case pipe =>
    rw [State.core_resetWith, ← bootEntry_eq]
    exact ⟨rfl, rfl⟩

/-- The two fetches of a core in the reset sequence. -/
theorem State.refill_coldStart (s : State) (c : CoreId) (k : CpuContext) :
    s.coldStart.refill c k =
      [.memRead c (BitVec.ofNat 32 (s.params.bootPc[c].toNat / 4 * 4) + 4#32) .word k.pipe1,
       .memRead c (BitVec.ofNat 32 (s.params.bootPc[c].toNat / 4 * 4)) .word k.pipe0] := by
  rw [State.refill, s.fetchWidth_coldStart, s.flushAddr_coldStart]
  rfl

/-- What the pipelines hold after the reset sequence is what the memory port answered, each free value in its turn. -/
theorem State.pipes_resetSequence (s : State) (c : CoreId) :
    (∃ n, (s.resetSequence.core c).pipe0 =
        State.memAnswer { s with freeCount := n } c (BitVec.ofNat 32 (s.params.bootPc[c].toNat / 4 * 4)) .word)
      ∧ ∃ n, (s.resetSequence.core c).pipe1 =
        State.memAnswer { s with freeCount := n } c (BitVec.ofNat 32 (s.params.bootPc[c].toNat / 4 * 4) + 4#32) .word := by
  obtain ⟨n, e⟩ := s.core_resetSequence c
  have addr : (State.core { s.coldStart with freeCount := n } c).flushAddr =
      BitVec.ofNat 32 (s.params.bootPc[c].toNat / 4 * 4) := s.flushAddr_coldStart c
  have width : fetchWidth (State.core { s.coldStart with freeCount := n } c).status = .word := s.fetchWidth_coldStart c
  rw [e, State.flushed, addr, width]
  exact ⟨⟨n, State.memAnswer_congr rfl rfl rfl _ _ _⟩, _, State.memAnswer_congr rfl rfl rfl _ _ _⟩

/-- Settles O48: the reset sequence is the cold start and the ten fetches (`State.resetSequence_frame`,
`State.out_resetSequence`, `State.pipes_resetSequence`). -/
theorem resetReachesTheResetTable : Obligations.ResetReachesTheResetTable := by
  intro s boot a
  obtain ⟨_, _, _, _, e⟩ := s.resetSequence_frame
  have params : s.resetSequence.params = s.params := by rw [e]; rfl
  refine ⟨s.resetSequence, ?next, ?table, by rw [e]; rfl, fun b => ?mem, params, by rw [e]; rfl,
    fun c => ((s.resetSequence.core c).pipe0, (s.resetSequence.core c).pipe1), ?out, fun c => ⟨rfl, rfl⟩,
    s.pipes_resetSequence⟩
  case next => exact congrArg Host.Outcome.next (State.enterReset_running boot)
  case table =>
    exact resetTable_of_coldStart s.resetSequence_frame fun c => by rw [params]; exact resetContext_resetSequence s c
  case mem => rw [e]; rfl
  case out =>
    rw [s.out_resetSequence]
    simp only [s.refill_coldStart]
    rfl

/-! ## The invariants after power-on (R50) -/

theorem contextOk_reset (p : Params) (m : List Host.Cell) (c : CoreId) : ContextOk (CpuContext.reset p m c) where
  mode := by
    show modeOf 0xD3#32 ∈ modes
    decide
  aligned := by
    refine aligned_add_width (status := 0xD3#32) ?_
    show bootEntry p c &&& 3#32 = 0#32
    rw [bootEntry, BitVec.and_assoc]
    simp [BitVec.and_comm]
  narrow := by
    intro t
    exact absurd (compact_resetStatus.symm.trans t) (by decide)

theorem timeInv_resetWith {p : Params} (m : List Host.Cell) (wf : p.wf = true) : TimeInv (State.resetWith p m) where
  params := wf
  sorted := List.pairwise_singleton _ _
  notPast _ _ := BitVec.le_def.2 (Nat.zero_le _)
  oneRebase := rfl
  horizon := by simp [State.resetWith]
  bound := by
    have tasks := (Params.wf_bounds wf).2.2
    simp [State.resetWith]
    omega
  ready c := by
    rw [(resetContext_resetWith p m c).1]
    exact Nat.zero_le _

theorem guardInv_resetWith (p : Params) (m : List Host.Cell) : GuardInv (State.resetWith p m) := by
  intro c
  have other : 0#8 ≠ deliverTask c := (deliverTask_ne_zero c).symm
  simp [State.resetWith, pending, other]

/-- Settles O51: each invariant is read off the power-on state. -/
theorem invariantsHoldAtReset : Obligations.InvariantsHoldAtReset := by
  intro p m wf mem
  have log : LogOk (State.resetWith p m) := by
    show (0#16).extractLsb' 11 5 = 0#5
    decide
  refine ⟨timeInv_resetWith m wf, guardInv_resetWith p m, fun c => ?_, mem, log, fun _ => rfl⟩
  rw [State.core_resetWith]
  exact contextOk_reset p m c

end Sys2Proof.Machine
end

section
/-! SUPPORT. Which steps write the external memory, and what an access of the executor does. -/

namespace Sys2Proof.Machine

/-! ## The memory along a step (R72, R76) -/

/-- Words leave the external memory alone. -/
theorem Moves.mem_eq {s t : State} (m : Moves s t) : t.mem = s.mem := by
  induction m with
  | refl => rfl
  | quiet _ k ih => exact k.mem.trans ih
  | context _ _ _ _ _ ih => exact ih
  | kick _ c ih => unfold State.kick; split <;> exact ih
  | schedule _ _ _ _ _ ih => exact ih
  | log _ _ _ ih => exact ih

/-- Tasks leave the external memory alone. -/
theorem TaskTo.mem_eq {s t : State} {b : TaskId} (m : TaskTo s b t) : t.mem = s.mem := by
  cases m with
  | rebase | endFrame | coreConfig | peripheral => rfl
  | deliver c m => exact m.mem_eq

theorem SameButNotes.mem_eq {s t : State} (n : SameButNotes s t) : t.mem = s.mem := by
  obtain ⟨_, _, rfl⟩ := n
  rfl

/-- `RESET` leaves the external memory alone, whether it waits or runs (R290). -/
@[simp] theorem State.enterReset_mem (s : State) : s.enterReset.mem = s.mem := by
  cases boot : s.bootImageOk
  · rw [State.enterReset, if_neg (by simp [boot])]
  · obtain ⟨_, _, _, _, e⟩ := s.resetSequence_frame
    rw [State.enterReset_running boot, e]
    rfl

/-- What a step can do to the external memory. -/
inductive MemoryEffect (s : State) : State → Prop where
  /-- Nothing. -/
  | kept {t} (same : t.mem = s.mem) : MemoryEffect s t
  /-- The executor stores (R70). -/
  | executorStore {t c opcode cs a n v} (ph : s.phase = .inStep c opcode cs)
      (act : s.execAction c opcode = .memWrite a n v)
      (stored : t.mem = if s.inWindow c a then s.mem else Memory.store s.mem a n v) : MemoryEffect s t
  /-- A callback stores (R23). -/
  | callbackStore {t task a n v} (ph : s.phase = .callback task) (act : s.callbackAction task = .memWrite a n v)
      (stored : t.mem = Memory.store s.mem a n v) : MemoryEffect s t

/-- Every step that answers a next state has one of the effects. -/
theorem step_memoryEffect {s t : State} (h : step s = .next t) : MemoryEffect s t := by
  cases step_goesTo h with
  | silent => exact .kept rfl
  | waiting | hostReset => exact .kept (State.enterReset_mem _)
  | hostRun _ k => obtain ⟨_, rfl⟩ := k; exact .kept rfl
  | command i f o k m n => exact .kept (n.mem_eq.trans ((exec_moves_cmd f o m).mem_eq.trans k.same.mem))
  | cpuWord i f _ _ m n => exact .kept (n.mem_eq.trans (exec_moves_cpu f m).mem_eq)
  | badWord w k n => exact .kept (n.mem_eq.trans k.same.mem)
  | again | yields | newPass | jump | skip | begin | advance | returns | unrecognized | eventsDone | callbackDone =>
    exact .kept rfl
  | reads _ _ _ k | callbackReads _ _ _ k => exact .kept k.mem_eq
  | writes _ _ _ ph act k => exact .executorStore ph act k.mem_eq
  | callbackWrites _ _ _ ph act k => exact .callbackStore ph act k.mem_eq
  | event _ _ _ m => exact .kept (exec_taskTo m).mem_eq

/-- Each effect keeps the canonical form: a store does, by `Memory.wf_store`. -/
theorem MemoryEffect.memoryOk {s t : State} (e : MemoryEffect s t) (ok : MemoryOk s) : MemoryOk t := by
  unfold MemoryOk at ok ⊢
  cases e with
  | kept same => rwa [same]
  | executorStore _ _ stored =>
    rw [stored]
    split
    · exact ok
    · exact Memory.wf_store ok _ _ _
  | callbackStore _ _ stored => rw [stored]; exact Memory.wf_store ok _ _ _

/-- Settles O55: `step_memoryEffect` names the two steps that store, and no other changes the memory. -/
theorem memoryIsWrittenByStoresOnly : Obligations.MemoryIsWrittenByStoresOnly := by
  intro s t h
  have effect := step_memoryEffect h
  refine ⟨effect.memoryOk, fun ⟨a, changed⟩ => ?_⟩
  cases effect with
  | kept same => exact absurd (congrArg (Memory.byteAt · a) same) changed
  | executorStore ph act _ => exact .inl ⟨_, _, _, _, _, _, ph, act⟩
  | callbackStore ph act _ => exact .inr ⟨_, _, _, _, ph, act⟩

/-! ## The accesses of the executor (R70, R72) -/

/-- A read of the executor: the access, and a note that changes nothing else (R150 (b)). -/
theorem step_of_executor_read {s : State} {c : CoreId} {opcode : Word} {cs : List CoreId} {a : Word} {n : Width}
    (ph : s.phase = .inStep c opcode cs) (act : s.execAction c opcode = .memRead a n) :
    step s = .next ((s.afterRead c a n).heard (some ((s.memAnswer c a n).setWidth 64))) := by
  simp only [step, State.transition, ph, State.executorStep, act, State.noted, State.heard, Bool.or_false,
    zext_eq_setWidth]

/-- A store of the executor: the access, and the note that the step has changed state (R150 (c)). -/
theorem step_of_executor_write {s : State} {c : CoreId} {opcode : Word} {cs : List CoreId} {a : Word} {n : Width}
    {v : Word} (ph : s.phase = .inStep c opcode cs) (act : s.execAction c opcode = .memWrite a n v) :
    step s = .next ((s.memWrite c a n v).noted none true) := by
  simp only [step, State.transition, ph, State.executorStep, act]

/-- Outside the windows a store of the executor is a store to the plain memory. -/
theorem State.memWrite_mem_of_plain {s : State} {c : CoreId} {a : Word} (plain : s.inWindow c a = false) (n : Width)
    (v : Word) : (s.memWrite c a n v).mem = Memory.store s.mem a n v := by
  simp [State.memWrite, plain]

/-- Settles O22: the actions are the access and a note (`step_of_executor_read`, `step_of_executor_write`); what a
store does to the bytes say `Memory.load_store` and `Memory.byteAt_store_other`. -/
theorem executorMemoryAccess : Obligations.ExecutorMemoryAccess := by
  intro s c opcode cs a n ph
  refine ⟨fun act plain => ?read, fun act window => ?windowRead, fun v act ok plain => ?store,
    fun v act window => ?windowStore⟩
  case read =>
    rw [step_of_executor_read ph act, State.memAnswer_plain n plain]
    simp [State.heard, State.afterRead, plain, State.memAnswer_plain n plain]
  case windowRead =>
    refine ⟨s.memAnswer c a n, ?_⟩
    rw [step_of_executor_read ph act]
    simp only [State.heard, State.afterRead, window, if_true]
  case store =>
    have stored := State.memWrite_mem_of_plain plain n v
    refine ⟨_, step_of_executor_write ph act, ?holds, fun b far => ?frame, ?rest⟩
    case holds => rw [State.noted_mem, stored, Memory.load_store ok]
    case frame =>
      unfold State.byteAt
      rw [State.noted_mem, stored, Memory.byteAt_store_other ok a n v b far]
    case rest => simp only [State.noted, State.heard, State.memWrite, Bool.or_true]
  case windowStore =>
    rw [step_of_executor_write ph act]
    simp only [State.noted, State.heard, State.memWrite, window, if_true, Bool.or_true]

end Sys2Proof.Machine
end

section
/-! SUPPORT. The encoding of operations: the encoder's word is decoded to its operation, and what the decoder accepts is
the encoder's word. -/

namespace Sys2Proof

/-! ## Fields made of parts -/

/-- A vector whose high part is zero is its low part, extended with zeros. -/
theorem zero_append_extractLsb' {m n : Nat} {x : BitVec (m + n)} (zero : x.extractLsb' n m = 0#m) :
    0#m ++ x.extractLsb' 0 n = x := by
  rw [← zero, BitVec.extractLsb'_append_extractLsb']

/-- Field `b` of a banked register access: reserved bits, mode, reserved bits, index (R94). -/
theorem bankOperand_eq_iff {b : BitVec 16} {mode : BitVec 5} {index : BitVec 4} :
    0#3 ++ mode ++ 0#4 ++ index = b
      ↔ b.extractLsb' 13 3 = 0#3 ∧ b.extractLsb' 4 4 = 0#4
        ∧ b.extractLsb' 0 4 = index ∧ b.extractLsb' 8 5 = mode := by
  constructor
  · rintro rfl
    simp (disch := decide) only [BitVec.extractLsb'_append_eq_of_le, BitVec.extractLsb'_append_eq_of_add_le,
      Nat.reduceSub, BitVec.extractLsb'_eq_self, and_self]
  · rintro ⟨high, low, rfl, rfl⟩
    simp only [← high, ← low, BitVec.extractLsb'_append_extractLsb'_eq_extractLsb']
    exact BitVec.extractLsb'_eq_self

/-- The request word of `SGI`: mode, mask and type, with reserved bits above each (R98). -/
theorem sgiRequest_eq_iff {d : BitVec 64} {type : BitVec 10} {mask : BitVec 4} {mode : BitVec 2} :
    0#38 ++ mode ++ 0#4 ++ mask ++ 0#6 ++ type = d
      ↔ (d.extractLsb' 26 38 = 0#38 ∧ d.extractLsb' 20 4 = 0#4 ∧ d.extractLsb' 10 6 = 0#6)
        ∧ d.extractLsb' 0 10 = type ∧ d.extractLsb' 16 4 = mask ∧ d.extractLsb' 24 2 = mode := by
  constructor
  · rintro rfl
    simp (disch := decide) only [BitVec.extractLsb'_append_eq_of_le, BitVec.extractLsb'_append_eq_of_add_le,
      Nat.reduceSub, BitVec.extractLsb'_eq_self, and_self]
  · rintro ⟨⟨high, mid, low⟩, rfl, rfl, rfl⟩
    simp only [← high, ← mid, ← low, BitVec.extractLsb'_append_extractLsb'_eq_extractLsb']
    exact BitVec.extractLsb'_eq_self

/-! ## From an operation to its word and back -/

/-- A row of the map reads its operation where its reserved bits are zero. -/
theorem decode_mkWord_of_row {op a : BitVec 8} {b : BitVec 16} {d : BitVec 64} {reserved : Prop} [Decidable reserved]
    {i j : Instr} (row : decodeFields op a b d = whenReservedZero (decide reserved) j) (zero : reserved) (same : j = i) :
    decode (.op (mkWord op a b d)) = .ok i := by
  rw [decode_mkWord, row, same, whenReservedZero, decide_eq_true zero, if_pos rfl]

/-- The decoder reads the encoder's word, row by row: the reserved bits are those the encoder extends an operand with,
and the operands are the parts it put together. -/
theorem decode_opWord {i : Instr} (word : i.format ≠ .task) : decode (.op (opWord i)) = .ok i := by
  cases i with
  | tRebase | tEndFrame | tCoreConfig | tIrqDeliver0 | tIrqDeliver1 | tIrqDeliver2 | tIrqDeliver3 | tIrqDeliver4
  | tPeripheral => exact absurd rfl word
  | schedule | sendIrq | irqEnableSet | irqEnableClear | irqEoi => exact decode_mkWord_of_row rfl rfl rfl
  | irqAck | xcoreStart | xcoreShutdownReq | statusRead | savedStatusRead | waitIrq =>
    exact decode_mkWord_of_row rfl ⟨rfl, rfl⟩ rfl
  | mgmtPendRead | mgmtEnableRead | readCycle | run | reset => exact decode_mkWord_of_row rfl ⟨rfl, rfl, rfl⟩ rfl
  | halt | unhalt | regRead =>
    exact decode_mkWord_of_row rfl ⟨BitVec.extractLsb'_append_eq_left, rfl⟩
      (by rw [BitVec.extractLsb'_append_eq_right])
  | routeWrite | localEnableWrite | excBaseWrite | pcWrite | statusWrite | savedStatusWrite | excReturn =>
    exact decode_mkWord_of_row rfl ⟨rfl, BitVec.extractLsb'_append_eq_left⟩
      (by rw [BitVec.extractLsb'_append_eq_right])
  | mgmtEnableWrite | mgmtPendClear | distEnableWrite | perfModeWrite =>
    exact decode_mkWord_of_row rfl ⟨rfl, rfl, BitVec.extractLsb'_append_eq_left⟩
      (by rw [BitVec.extractLsb'_append_eq_right])
  | regWrite | trap =>
    exact decode_mkWord_of_row rfl ⟨BitVec.extractLsb'_append_eq_left, BitVec.extractLsb'_append_eq_left⟩
      (by rw [BitVec.extractLsb'_append_eq_right, BitVec.extractLsb'_append_eq_right])
  | sgi =>
    obtain ⟨reserved, atType, atMask, atMode⟩ := sgiRequest_eq_iff.1 rfl
    exact decode_mkWord_of_row rfl ⟨rfl, reserved⟩ (by rw [atType, atMask, atMode])
  | bankRegRead =>
    obtain ⟨high, low, atIndex, atMode⟩ := bankOperand_eq_iff.1 rfl
    exact decode_mkWord_of_row rfl ⟨high, low, rfl⟩ (by rw [atIndex, atMode])
  | bankRegWrite =>
    obtain ⟨high, low, atIndex, atMode⟩ := bankOperand_eq_iff.1 rfl
    exact decode_mkWord_of_row rfl ⟨high, low, BitVec.extractLsb'_append_eq_left⟩
      (by rw [atIndex, atMode, BitVec.extractLsb'_append_eq_right])

/-- A TaskId from 8 up is a peripheral task (R93; log entry 26). -/
theorem decodeTask_of_le {b : TaskId} (h : 8 ≤ b.toNat) : decodeTask b = .tPeripheral b := by
  unfold decodeTask
  split
  case h_9 => rfl
  all_goals exact absurd h (by decide)

/-- The decoder reads the TaskId of a well-formed task as that task (R93). -/
theorem decodeTask_taskByte {i : Instr} (task : i.format = .task) (wf : i.wf = true) : decodeTask (taskByte i) = i := by
  cases i with
  | tRebase | tEndFrame | tCoreConfig | tIrqDeliver0 | tIrqDeliver1 | tIrqDeliver2 | tIrqDeliver3 | tIrqDeliver4 => rfl
  | tPeripheral b => exact decodeTask_of_le (BitVec.le_def.1 (of_decide_eq_true wf))
  | _ => cases task

theorem encode_of_task {i : Instr} (task : i.format = .task) : encode i = .task (taskByte i) := by
  rw [encode, task]

theorem encode_of_word {i : Instr} (word : i.format ≠ .task) : encode i = .op (opWord i) := by
  rw [encode]
  split
  · exact absurd ‹_› word
  all_goals rfl

/-- Settles O1: a task is read from its TaskId (`decodeTask_taskByte`), every other operation from its word
(`decode_opWord`). -/
theorem decodeOfEncode : Obligations.DecodeOfEncode := by
  intro i wf
  by_cases task : i.format = .task
  · rw [encode_of_task task, decode, decodeTask_taskByte task wf]
  · rw [encode_of_word task, decode_opWord task]

/-! ## From a word to its operation and back -/

theorem whenReservedZero_eq_ok {reserved : Prop} [Decidable reserved] {i j : Instr} :
    whenReservedZero (decide reserved) i = .ok j ↔ reserved ∧ i = j := by
  by_cases zero : reserved <;> simp [whenReservedZero, zero]

/-- What an op code selects is well formed and has the fields it was read from: an operand that fills its field is that
field, and one beside reserved bits is the field because those are zero. -/
theorem encode_of_decodeFields {op a : BitVec 8} {b : BitVec 16} {d : BitVec 64} {i : Instr}
    (h : decodeFields op a b d = .ok i) : i.wf = true ∧ encode i = .op (mkWord op a b d) := by
  have fields {a' : BitVec 8} {b' : BitVec 16} {d' : BitVec 64} (op : BitVec 8) (ha : a' = a) (hb : b' = b)
      (hd : d' = d) : Encoded.op (mkWord op a' b' d') = .op (mkWord op a b d) := by rw [ha, hb, hd]
  unfold decodeFields at h
  split at h
  case h_36 => cases h
  all_goals
    obtain ⟨zero, rfl⟩ := whenReservedZero_eq_ok.1 h
    refine ⟨rfl, fields _ ?_ ?_ ?_⟩
  all_goals simp only [zero, zero_append_extractLsb', bankOperand_eq_iff, sgiRequest_eq_iff, and_self]

/-- A word that is read as an operation is the word of that operation, which is not a task. -/
theorem eq_opWord_of_decode {w : OpWord} {i : Instr} (h : decode (.op w) = .ok i) :
    i.format ≠ .task ∧ opWord i = w := by
  have encoded : encode i = .op w := by
    rw [(encode_of_decodeFields h).2, mkWord_fields]
  by_cases task : i.format = .task
  · rw [encode_of_task task] at encoded
    cases encoded
  · rw [encode_of_word task] at encoded
    exact ⟨task, Encoded.op.inj encoded⟩

/-- Every TaskId is read as the well-formed task it is the TaskId of (R93). -/
theorem encode_decodeTask (b : TaskId) : (decodeTask b).wf = true ∧ encode (decodeTask b) = .task b := by
  have own : ∀ n < 8, (decodeTask (BitVec.ofNat 8 n)).wf = true
      ∧ encode (decodeTask (BitVec.ofNat 8 n)) = .task (BitVec.ofNat 8 n) := by decide
  by_cases peripheral : 8 ≤ b.toNat
  · rw [decodeTask_of_le peripheral]
    exact ⟨decide_eq_true (BitVec.le_def.2 peripheral), rfl⟩
  · have read := own b.toNat (Nat.not_le.1 peripheral)
    rwa [BitVec.ofNat_toNat, BitVec.setWidth_eq] at read

/-- Settles O2: for a word by the row its op code selects (`encode_of_decodeFields`), for a TaskId by
`encode_decodeTask`. -/
theorem encodeOfDecode : Obligations.EncodeOfDecode := by
  intro e i h
  cases e with
  | op w =>
    have read := encode_of_decodeFields h
    rwa [mkWord_fields] at read
  | task b =>
    cases h
    exact encode_decodeTask b

/-- Settles O4: the reserved bits of each word are evaluated. -/
theorem workedEncodingsDecode : Obligations.WorkedEncodingsDecode :=
  ⟨rfl, rfl, rfl, rfl, rfl, rfl, rfl, rfl, rfl⟩

/-- Settles O5: the own tasks are evaluated, the others are `decodeTask_of_le`. -/
theorem taskIdsDecode : Obligations.TaskIdsDecode :=
  ⟨rfl, rfl, rfl, rfl, rfl, rfl, rfl, rfl, fun _ peripheral => congrArg Except.ok (decodeTask_of_le peripheral)⟩

end Sys2Proof
end

section
/-! SUPPORT. The opcode map as a table: the decoder read row by row off `cmdRows` and `cpuRows` (R94). -/

namespace Sys2Proof.Machine

/-! ## Masks -/

/-- The bits that a mask selects are zero exactly when the part it covers is. -/
theorem and_mask_eq_zero_iff {n : Nat} (x m : BitVec n) (k l : Nat)
    (covers : ∀ i < n, m.getLsbD i = decide (k ≤ i ∧ i < k + l)) (fits : k + l ≤ n) :
    x &&& m = 0#n ↔ x.extractLsb' k l = 0#l := by
  constructor
  · intro zero
    apply BitVec.eq_of_getLsbD_eq
    intro i hi
    have bit := congrArg (fun v => v.getLsbD (k + i)) zero
    simpa [covers (k + i) (by omega), hi] using bit
  · intro zero
    apply BitVec.eq_of_getLsbD_eq
    intro i hi
    have bit := congrArg (fun v => v.getLsbD (i - k)) zero
    by_cases inside : k ≤ i ∧ i < k + l
    · have below : i - k < l := by omega
      simpa [covers i hi, inside, below] using bit
    · simp [covers i hi, inside]

theorem and_or_eq_zero_iff {n : Nat} (x m m' : BitVec n) :
    x &&& (m ||| m') = 0#n ↔ x &&& m = 0#n ∧ x &&& m' = 0#n := by
  rw [BitVec.and_or_distrib_left, BitVec.or_eq_zero_iff]

/-- The parts of a word that a mask selects. -/
theorem and_eq_mkWord_iff (w m : OpWord) (op a : BitVec 8) (b : BitVec 16) (d : BitVec 64) :
    w &&& m = mkWord op a b d
      ↔ fieldOp w &&& fieldOp m = op ∧ fieldA w &&& fieldA m = a ∧ fieldB w &&& fieldB m = b
        ∧ fieldD w &&& fieldD m = d := by
  constructor
  · intro h
    have op := congrArg fieldOp h
    have a := congrArg fieldA h
    have b := congrArg fieldB h
    have d := congrArg fieldD h
    rw [fieldOp_mkWord, fieldOp, BitVec.extractLsb'_and] at op
    rw [fieldA_mkWord, fieldA, BitVec.extractLsb'_and] at a
    rw [fieldB_mkWord, fieldB, BitVec.extractLsb'_and] at b
    rw [fieldD_mkWord, fieldD, BitVec.extractLsb'_and] at d
    exact ⟨op, a, b, d⟩
  · rintro ⟨rfl, rfl, rfl, rfl⟩
    rw [← mkWord_fields (w &&& m)]
    simp only [fieldOp, fieldA, fieldB, fieldD, BitVec.extractLsb'_and]

/-! ## Rows -/

/-- Every reserved bit of the row is zero in the fields of a word (R94, R101). -/
def OpRow.reservedZero (r : OpRow) (a : BitVec 8) (b : BitVec 16) (d : BitVec 64) : Bool :=
  decide (a &&& fieldA r.mask = 0#8 ∧ b &&& fieldB r.mask = 0#16 ∧ d &&& fieldD r.mask = 0#64)

/-- The row's op code. -/
def OpRow.opCode (r : OpRow) : BitVec 8 := fieldOp r.pattern

/-- The decoder is this row on its op code: it reads the fields as an operation of the row's name and format, unless a
reserved bit of the row is one. -/
def OpRow.Decoded (f : Format) (r : OpRow) : Prop :=
  ∃ build : BitVec 8 → BitVec 16 → BitVec 64 → Instr,
    ∀ a b d, decodeFields r.opCode a b d = whenReservedZero (r.reservedZero a b d) (build a b d)
      ∧ (build a b d).mnemonic = r.mnemonic ∧ (build a b d).format = f

/-- What is to be checked of a row: that the decoder tests its reserved bits, and the name and the format of what it
reads. -/
theorem OpRow.Decoded.of_reserved {f : Format} {r : OpRow} {build : BitVec 8 → BitVec 16 → BitVec 64 → Instr}
    {reserved : BitVec 8 → BitVec 16 → BitVec 64 → Bool}
    (row : ∀ a b d, decodeFields r.opCode a b d = whenReservedZero (reserved a b d) (build a b d))
    (tested : ∀ a b d, reserved a b d = r.reservedZero a b d)
    (named : ∀ a b d, (build a b d).mnemonic = r.mnemonic ∧ (build a b d).format = f := by
      exact fun _ _ _ => ⟨rfl, rfl⟩) : r.Decoded f :=
  ⟨build, fun a b d => ⟨by rw [row, tested], named a b d⟩⟩

/-! ## The masks of the map -/

theorem and_mask_8 (x : BitVec 8) : x &&& 0xFF#8 = 0#8 ↔ x = 0#8 := by
  rw [show x &&& 0xFF#8 = x from BitVec.and_allOnes]

theorem and_mask_16 (x : BitVec 16) : x &&& 0xFFFF#16 = 0#16 ↔ x = 0#16 := by
  rw [show x &&& 0xFFFF#16 = x from BitVec.and_allOnes]

theorem and_mask_64 (x : BitVec 64) : x &&& 0xFFFFFFFFFFFFFFFF#64 = 0#64 ↔ x = 0#64 := by
  rw [show x &&& 0xFFFFFFFFFFFFFFFF#64 = x from BitVec.and_allOnes]

/-- Above a halt reason (R97). -/
theorem and_mask_reason (b : BitVec 16) : b &&& 0xFF00#16 = 0#16 ↔ b.extractLsb' 8 8 = 0#8 :=
  and_mask_eq_zero_iff _ _ 8 8 (by decide) (by decide)

/-- Above a register index (R99). -/
theorem and_mask_index (b : BitVec 16) : b &&& 0xFFF0#16 = 0#16 ↔ b.extractLsb' 4 12 = 0#12 :=
  and_mask_eq_zero_iff _ _ 4 12 (by decide) (by decide)

/-- Above an exception type (R182). -/
theorem and_mask_exc (b : BitVec 16) : b &&& 0xFFF8#16 = 0#16 ↔ b.extractLsb' 3 13 = 0#13 :=
  and_mask_eq_zero_iff _ _ 3 13 (by decide) (by decide)

/-- Above a mode and above an index (R94). -/
theorem and_mask_bank (b : BitVec 16) :
    b &&& 0xE0F0#16 = 0#16 ↔ b.extractLsb' 13 3 = 0#3 ∧ b.extractLsb' 4 4 = 0#4 := by
  rw [show (0xE0F0#16 : BitVec 16) = 0xE000#16 ||| 0x00F0#16 from rfl, and_or_eq_zero_iff,
    and_mask_eq_zero_iff _ _ 13 3 (by decide) (by decide), and_mask_eq_zero_iff _ _ 4 4 (by decide) (by decide)]

/-- Above a 32-bit value. -/
theorem and_mask_value (d : BitVec 64) : d &&& 0xFFFFFFFF00000000#64 = 0#64 ↔ d.extractLsb' 32 32 = 0#32 :=
  and_mask_eq_zero_iff _ _ 32 32 (by decide) (by decide)

/-- Above an enable bit. -/
theorem and_mask_enable (d : BitVec 64) : d &&& 0xFFFFFFFFFFFFFFFE#64 = 0#64 ↔ d.extractLsb' 1 63 = 0#63 :=
  and_mask_eq_zero_iff _ _ 1 63 (by decide) (by decide)

/-- Above a routing mask. -/
theorem and_mask_route (d : BitVec 64) : d &&& 0xFFFFFFFFFFFFFFF0#64 = 0#64 ↔ d.extractLsb' 4 60 = 0#60 :=
  and_mask_eq_zero_iff _ _ 4 60 (by decide) (by decide)

/-- Beside the operands of a request word of `SGI` (R98). -/
theorem and_mask_request (d : BitVec 64) :
    d &&& 0xFFFFFFFFFCF0FC00#64 = 0#64
      ↔ d.extractLsb' 26 38 = 0#38 ∧ d.extractLsb' 20 4 = 0#4 ∧ d.extractLsb' 10 6 = 0#6 := by
  rw [show (0xFFFFFFFFFCF0FC00#64 : BitVec 64) = 0xFFFFFFFFFC000000#64 ||| (0xF00000#64 ||| 0xFC00#64) from rfl,
    and_or_eq_zero_iff, and_or_eq_zero_iff, and_mask_eq_zero_iff _ _ 26 38 (by decide) (by decide),
    and_mask_eq_zero_iff _ _ 20 4 (by decide) (by decide), and_mask_eq_zero_iff _ _ 10 6 (by decide) (by decide)]

/-- The CMD rows are what the decoder does on the op codes of the command port (R94). -/
theorem cmdRows_decoded : ∀ r ∈ cmdRows, r.Decoded .cmd := by
  simp only [cmdRows, List.forall_mem_cons]
  refine ⟨
    .of_reserved decodeFields_schedule ?_, .of_reserved decodeFields_sendIrq ?_, .of_reserved decodeFields_halt ?_,
    .of_reserved decodeFields_unhalt ?_, .of_reserved decodeFields_sgi ?_,
    .of_reserved decodeFields_mgmtEnableWrite ?_, .of_reserved decodeFields_mgmtPendClear ?_,
    .of_reserved decodeFields_mgmtPendRead ?_, .of_reserved decodeFields_mgmtEnableRead ?_,
    .of_reserved decodeFields_distEnableWrite ?_, .of_reserved decodeFields_localEnableWrite ?_,
    .of_reserved decodeFields_irqEnableSet ?_, .of_reserved decodeFields_irqEnableClear ?_,
    .of_reserved decodeFields_routeWrite ?_, .of_reserved decodeFields_irqAck ?_,
    .of_reserved decodeFields_irqEoi ?_, .of_reserved decodeFields_xcoreStart ?_,
    .of_reserved decodeFields_xcoreShutdownReq ?_, .of_reserved decodeFields_excBaseWrite ?_,
    .of_reserved decodeFields_perfModeWrite ?_, .of_reserved decodeFields_readCycle ?_,
    .of_reserved decodeFields_run ?_, .of_reserved decodeFields_reset ?_, fun _ h => nomatch h⟩
  all_goals
    intro a b d
    simp only [OpRow.reservedZero, fieldA, fieldB, fieldD, BitVec.reduceExtractLsb', BitVec.and_zero, and_mask_8,
      and_mask_16, and_mask_64, and_mask_reason, and_mask_value, and_mask_enable, and_mask_route, and_mask_request,
      true_and, and_true]

/-- The CPU rows are what the decoder does on the op codes of the CPU port (R94). -/
theorem cpuRows_decoded : ∀ r ∈ cpuRows, r.Decoded .cpu := by
  simp only [cpuRows, List.forall_mem_cons]
  refine ⟨
    .of_reserved decodeFields_regRead ?_, .of_reserved decodeFields_regWrite ?_,
    .of_reserved decodeFields_pcWrite ?_, .of_reserved decodeFields_statusRead ?_,
    .of_reserved decodeFields_statusWrite ?_, .of_reserved decodeFields_savedStatusRead ?_,
    .of_reserved decodeFields_savedStatusWrite ?_, .of_reserved decodeFields_bankRegRead ?_,
    .of_reserved decodeFields_bankRegWrite ?_, .of_reserved decodeFields_trap ?_,
    .of_reserved decodeFields_excReturn ?_, .of_reserved decodeFields_waitIrq ?_, fun _ h => nomatch h⟩
  all_goals
    intro a b d
    simp only [OpRow.reservedZero, fieldA, fieldB, fieldD, BitVec.reduceExtractLsb', BitVec.and_zero, and_mask_16,
      and_mask_64, and_mask_index, and_mask_exc, and_mask_bank, and_mask_value, true_and, and_assoc]

/-! ## The decoder as the table -/

/-- A row matches a word with its op code and zeros in its reserved bits (R94). -/
theorem OpRow.matches_iff {r : OpRow} (listed : r ∈ opRows) (w : OpWord) :
    w &&& r.mask = r.pattern
      ↔ fieldOp w = r.opCode ∧ r.reservedZero (fieldA w) (fieldB w) (fieldD w) = true := by
  have shape : ∀ r ∈ opRows, r.pattern = mkWord r.opCode 0#8 0#16 0#64 ∧ fieldOp r.mask = BitVec.allOnes 8 := by
    decide
  obtain ⟨pattern, mask⟩ := shape r listed
  rw [pattern, and_eq_mkWord_iff, mask, BitVec.and_allOnes, OpRow.reservedZero, decide_eq_true_iff]

/-- A word that a row of the map matches is read as an operation of the row's name and format (R94). -/
theorem OpRow.Decoded.decode_of_match {f : Format} {r : OpRow} (row : r.Decoded f) (listed : r ∈ opRows) {w : OpWord}
    (hit : w &&& r.mask = r.pattern) : ∃ i, decode (.op w) = .ok i ∧ i.mnemonic = r.mnemonic ∧ i.format = f := by
  obtain ⟨op, zero⟩ := (OpRow.matches_iff listed w).1 hit
  obtain ⟨build, read⟩ := row
  obtain ⟨eq, named⟩ := read (fieldA w) (fieldB w) (fieldD w)
  refine ⟨_, ?_, named⟩
  rw [decode, decodeOp, op, eq, zero, whenReservedZero, if_pos rfl]

theorem opRows_decoded {r : OpRow} (listed : r ∈ opRows) : ∃ f, r.Decoded f :=
  (List.mem_append.1 listed).elim (fun cmd => ⟨_, cmdRows_decoded r cmd⟩) (fun cpu => ⟨_, cpuRows_decoded r cpu⟩)

/-- Every op code that the decoder does not refuse is one of the map (R102). -/
theorem exists_row_of_decodeFields {op a : BitVec 8} {b : BitVec 16} {d : BitVec 64} {i : Instr}
    (h : decodeFields op a b d = .ok i) : ∃ r ∈ opRows, r.opCode = op := by
  unfold decodeFields at h
  split at h
  case h_36 => cases h
  all_goals decide

/-- A word that is read as an operation is matched by a row of that operation's name (R94). -/
theorem exists_match_of_decode {w : OpWord} {i : Instr} (h : decode (.op w) = .ok i) :
    ∃ r ∈ opRows, w &&& r.mask = r.pattern ∧ r.mnemonic = i.mnemonic := by
  obtain ⟨r, listed, op⟩ := exists_row_of_decodeFields h
  obtain ⟨_, build, read⟩ := opRows_decoded listed
  obtain ⟨eq, name, _⟩ := read (fieldA w) (fieldB w) (fieldD w)
  rw [decode, decodeOp, ← op, eq, whenReservedZero] at h
  split at h
  · rename_i zero
    cases h
    exact ⟨r, listed, (OpRow.matches_iff listed w).2 ⟨op.symm, zero⟩, name.symm⟩
  · cases h

/-- A word that no row matches is refused (R101, R102). -/
theorem decode_error_of_no_match {w : OpWord} (miss : ∀ r ∈ opRows, w &&& r.mask ≠ r.pattern) :
    ∃ e, decode (.op w) = .error e := by
  cases h : decode (.op w) with
  | error e => exact ⟨e, rfl⟩
  | ok i =>
    obtain ⟨r, listed, hit, _⟩ := exists_match_of_decode h
    exact absurd hit (miss r listed)

/-- Settles O3: the three clauses are `exists_match_of_decode`, `OpRow.Decoded.decode_of_match` for the row, and
`decode_error_of_no_match`. -/
theorem decoderFollowsOpcodeMap : Obligations.DecoderFollowsOpcodeMap := by
  refine fun w => ⟨fun i h => exists_match_of_decode h, fun r listed hit => ?_, decode_error_of_no_match⟩
  obtain ⟨_, row⟩ := opRows_decoded listed
  obtain ⟨i, read, name, _⟩ := row.decode_of_match listed hit
  exact ⟨i, read, name⟩

end Sys2Proof.Machine
end

section
/-! SUPPORT. Words on the ports: which are executed, which are only logged, and what the issuer notes. -/

namespace Sys2Proof.Machine

/-! ## Illegal words (R101, R102) -/

theorem State.issue_of_error {s : State} {p : Port} {w : OpWord} {e : DecodeError} (h : decode (.op w) = .error e) :
    s.issue p w = .next (s.reject .badOp w) := by
  simp only [State.issue, h]

theorem State.issue_of_refused {s : State} {p : Port} {w : OpWord} {i : Instr} (h : decode (.op w) = .ok i)
    (refused : portAccepts p s.phase i = false) : s.issue p w = .next (s.reject .badOp w) := by
  simp only [State.issue, h, refused, Bool.false_eq_true, if_false]

theorem State.issue_of_accepted {s : State} {p : Port} {w : OpWord} {i : Instr} (h : decode (.op w) = .ok i)
    (accepted : portAccepts p s.phase i = true) : s.issue p w = exec i s := by
  simp only [State.issue, h, accepted, if_true]

/-- The command port takes words of format CMD only (R91, R102). -/
theorem portAccepts_command_of_cpu (ph : Phase) {i : Instr} (cpu : i.format = .cpu) :
    portAccepts .command ph i = false := by
  cases ph <;> simp [portAccepts, cpu]

/-- The CPU port takes words of format CPU only (R92, R102). -/
theorem portAccepts_cpu_of_cmd (ph : Phase) {i : Instr} (cmd : i.format = .cmd) : portAccepts .cpu ph i = false := by
  cases ph <;> simp [portAccepts, cmd]

/-- Settles O8: a word in no row is not decoded, and one of the other port's rows is not accepted. -/
theorem illegalWordIsOnlyLogged : Obligations.IllegalWordIsOnlyLogged := by
  rintro s p w (miss | ⟨rfl, r, listed, hit⟩ | ⟨rfl, r, listed, hit⟩)
  · obtain ⟨e, h⟩ := decode_error_of_no_match miss
    exact State.issue_of_error h
  · obtain ⟨i, h, _, cpu⟩ := (cpuRows_decoded r listed).decode_of_match (List.mem_append_right _ listed) hit
    exact State.issue_of_refused h (portAccepts_command_of_cpu _ cpu)
  · obtain ⟨i, h, _, cmd⟩ := (cmdRows_decoded r listed).decode_of_match (List.mem_append_left _ listed) hit
    exact State.issue_of_refused h (portAccepts_cpu_of_cmd _ cmd)

/-! ## Illegal operands (R96, R97, R98, R123, R182, R215) -/

theorem coreOf_isNone (a : BitVec 8) : (coreOf a).isNone = decide (4 < a.toNat) := by
  by_cases h : a.toNat < 5 <;> simp [coreOf, h] <;> omega

theorem symOf_isNone (a : BitVec 8) : (symOf a).isNone = decide (3 < a.toNat) := by
  by_cases h : a.toNat < 4 <;> simp [symOf, h] <;> omega

theorem extraOf_isNone (a : BitVec 8) :
    (extraOf a).isNone = !(decide (a.toNat = 2) || decide (a.toNat = 3)) := by
  revert a; decide

theorem symTypeOf_isNone (y : BitVec 16) : (symTypeOf y).isNone = decide (127 < y.toNat) := by
  by_cases h : y.toNat < 128 <;> simp [symTypeOf, h] <;> omega

theorem mgmtTypeOf_isNone (y : BitVec 16) : (mgmtTypeOf y).isNone = decide (31 < y.toNat) := by
  by_cases h : y.toNat < 32 <;> simp [mgmtTypeOf, h] <;> omega

theorem sgiTypeOf_isNone (y : BitVec 10) : (sgiTypeOf y).isNone = decide (15 < y.toNat) := by
  by_cases h : y.toNat < 16 <;> simp [sgiTypeOf, h] <;> omega

theorem sgiTargets_isNone (i : SymId) (mask : BitVec 4) (mode : BitVec 2) :
    (sgiTargets i mask mode).isNone = decide (mode.toNat = 3) := by
  revert i mask mode; decide

theorem reasonOf_isNone (r : BitVec 8) : (reasonOf r).isNone = decide (7 < r.toNat) := by
  by_cases h : r.toNat < 8 <;> simp [reasonOf, h] <;> omega

theorem excOf_isNone (x : BitVec 3) : (excOf x).isNone = decide (x.toNat = 5) := by
  revert x; decide

section
variable {s : State} {i : Instr} {e e' : Err} {rest : List (Bool × Err)}

/-- A check that an operation makes: an operand that names nothing is logged with the error of this check, and for one
that names something the checks that follow decide. -/
theorem check_fails_or_passes {α : Type} {operand : Option α} {bad : Bool} (check : operand.isNone = bad)
    (h : firstError ((bad, e') :: rest) = some e) :
    (operand = none ∧ e' = e) ∨ ∃ x, operand = some x ∧ firstError rest = some e := by
  subst check
  cases operand with
  | none => exact .inl ⟨rfl, Option.some.inj h⟩
  | some x => exact .inr ⟨x, rfl, h⟩

theorem withCore_rejects {a : BitVec 8} {f : CoreId → Result}
    (h : firstError ((decide (4 < a.toNat), .badCore) :: rest) = some e)
    (next : ∀ x, firstError rest = some e → f x = s.rejected e i) : s.withCore a i f = s.rejected e i := by
  unfold State.withCore
  rcases check_fails_or_passes (coreOf_isNone a) h with ⟨illegal, rfl⟩ | ⟨x, legal, h⟩
  · rw [illegal]
  · rw [legal]
    exact next x h

theorem withSym_rejects {a : BitVec 8} {f : SymId → Result}
    (h : firstError ((decide (3 < a.toNat), .badCore) :: rest) = some e)
    (next : ∀ x, firstError rest = some e → f x = s.rejected e i) : s.withSym a i f = s.rejected e i := by
  unfold State.withSym
  rcases check_fails_or_passes (symOf_isNone a) h with ⟨illegal, rfl⟩ | ⟨x, legal, h⟩
  · rw [illegal]
  · rw [legal]
    exact next x h

theorem withExtra_rejects {a : BitVec 8} {f : Fin 2 → Result}
    (h : firstError ((!(decide (a.toNat = 2) || decide (a.toNat = 3)), .badCore) :: rest) = some e)
    (next : ∀ x, firstError rest = some e → f x = s.rejected e i) : s.withExtra a i f = s.rejected e i := by
  unfold State.withExtra
  rcases check_fails_or_passes (extraOf_isNone a) h with ⟨illegal, rfl⟩ | ⟨x, legal, h⟩
  · rw [illegal]
  · rw [legal]
    exact next x h

theorem withType_rejects {y : BitVec 16} {f : IrqType → Result}
    (h : firstError ((decide (127 < y.toNat), .badIrqType) :: rest) = some e)
    (next : ∀ x, firstError rest = some e → f x = s.rejected e i) : s.withType y i f = s.rejected e i := by
  unfold State.withType
  rcases check_fails_or_passes (symTypeOf_isNone y) h with ⟨illegal, rfl⟩ | ⟨x, legal, h⟩
  · rw [illegal]
  · rw [legal]
    exact next x h

theorem withReason_rejects {r : BitVec 8} {f : Fin 8 → Result}
    (h : firstError ((decide (7 < r.toNat), .badReason) :: rest) = some e)
    (next : ∀ x, firstError rest = some e → f x = s.rejected e i) : s.withReason r i f = s.rejected e i := by
  unfold State.withReason
  rcases check_fails_or_passes (reasonOf_isNone r) h with ⟨illegal, rfl⟩ | ⟨x, legal, h⟩
  · rw [illegal]
  · rw [legal]
    exact next x h

end

/-- The tasks that `SCHEDULE` takes, by number (R123). -/
theorem legalTask_eq (n : Nat) (task : TaskId) :
    legalTask n task = (task.toNat = 1 || task.toNat = 2 || (8 ≤ task.toNat && task.toNat < n)) := by
  simp only [legalTask, BitVec.toNat_eq, BitVec.le_def, BitVec.toNat_ofNat, Nat.reducePow, Nat.reduceMod]

theorem execSchedule_rejects {s : State} {e : Err} {task : BitVec 8} {delay : BitVec 64}
    (h : operandError s.params.nTasks (.schedule task delay) = some e) :
    execSchedule task delay s = s.rejected e (.schedule task delay) := by
  rw [operandError, ← legalTask_eq] at h
  unfold execSchedule
  cases legal : legalTask s.params.nTasks task <;> rw [legal] at h <;> cases h
  rfl

/-- `SEND_IRQ` checks its target, and then the type in the domain of the target (R97, R201). -/
theorem execSendIrq_rejects {s : State} {e : Err} {target : BitVec 8} {type : BitVec 16}
    (h : operandError s.params.nTasks (.sendIrq target type) = some e) :
    execSendIrq target type s = s.rejected e (.sendIrq target type) := by
  unfold execSendIrq
  by_cases mgmt : target = 4#8
  · subst mgmt
    rw [if_pos rfl]
    rcases check_fails_or_passes (mgmtTypeOf_isNone type) (rest := []) h with ⟨illegal, rfl⟩ | ⟨_, _, h⟩
    · rw [illegal]
    · cases h
  rw [if_neg mgmt]
  by_cases all : target = 5#8
  · subst all
    rw [if_pos rfl]
    exact withType_rejects (rest := []) h nofun
  rw [if_neg all]
  have not4 : target.toNat ≠ 4 := fun same => mgmt (BitVec.eq_of_toNat_eq same)
  have not5 : target.toNat ≠ 5 := fun same => all (BitVec.eq_of_toNat_eq same)
  have unknown : decide (5 < target.toNat) = decide (3 < target.toNat) := decide_eq_decide.2 (by omega)
  rw [operandError, unknown, if_neg not4] at h
  exact withSym_rejects h fun _ h => withType_rejects h nofun

/-- `SGI` checks its core, its type and its mode (R215, R216). -/
theorem execSgi_rejects {s : State} {e : Err} {core : BitVec 8} {type : BitVec 10} {mask : BitVec 4} {mode : BitVec 2}
    (h : operandError s.params.nTasks (.sgi core type mask mode) = some e) :
    execSgi core type mask mode s = s.rejected e (.sgi core type mask mode) := by
  refine withSym_rejects h fun i h => ?_
  rcases check_fails_or_passes (sgiTypeOf_isNone type) h with ⟨illegal, rfl⟩ | ⟨_, legal, h⟩
  · rw [illegal]
  rcases check_fails_or_passes (sgiTargets_isNone i mask mode) h with ⟨illegal, rfl⟩ | ⟨_, _, h⟩
  · rw [legal, illegal]
  · cases h

/-- `TRAP` checks its core and its type (R182). -/
theorem execTrap_rejects {s : State} {e : Err} {core : BitVec 8} {exc : BitVec 3} {back : Word}
    (h : operandError s.params.nTasks (.trap core exc back) = some e) :
    execTrap core exc back s = s.rejected e (.trap core exc back) := by
  refine withCore_rejects h fun _ h => ?_
  rcases check_fails_or_passes (excOf_isNone exc) h with ⟨illegal, rfl⟩ | ⟨_, _, h⟩
  · rw [illegal]
  · cases h

/-- Settles O10: each operation goes through its checks in the order of `operandError`. -/
theorem illegalOperandIsOnlyLogged : Obligations.IllegalOperandIsOnlyLogged := by
  intro i s e h
  show exec i s = s.rejected e i
  cases i with
  | schedule => exact execSchedule_rejects h
  | sendIrq => exact execSendIrq_rejects h
  | sgi => exact execSgi_rejects h
  | trap => exact execTrap_rejects h
  | halt | unhalt => exact withCore_rejects h fun _ h => withReason_rejects h nofun
  | localEnableWrite | irqAck => exact withSym_rejects h nofun
  | irqEnableSet | irqEnableClear | irqEoi => exact withSym_rejects h fun _ h => withType_rejects h nofun
  | routeWrite => exact withType_rejects h nofun
  | xcoreStart | xcoreShutdownReq => exact withExtra_rejects h nofun
  | excBaseWrite | regRead | regWrite | pcWrite | statusRead | statusWrite | savedStatusRead | savedStatusWrite
  | bankRegRead | bankRegWrite | excReturn | waitIrq => exact withCore_rejects h nofun
  | mgmtEnableWrite | mgmtPendClear | mgmtPendRead | mgmtEnableRead | distEnableWrite | perfModeWrite | readCycle | run
  | reset | tRebase | tEndFrame | tCoreConfig | tIrqDeliver0 | tIrqDeliver1 | tIrqDeliver2 | tIrqDeliver3
  | tIrqDeliver4 | tPeripheral => cases h

/-! ## The words of the four issuers (R91, R92) -/

/-- A word that is read as an operation is that operation's word, so both name the same core. -/
theorem cpuCoreField_of_decode {w : OpWord} {i : Instr} (h : decode (.op w) = .ok i) : cpuCoreField i = fieldA w := by
  rw [cpuCoreField, (eq_opWord_of_decode h).2]

/-- A CPU word is its executor's own exactly when it names that executor's core, or no core at all (log entry 19). -/
theorem ownCore_eq_true_iff (c : CoreId) (a : BitVec 8) : ownCore c a = true ↔ a.toNat = c.val ∨ 5 ≤ a.toNat := by
  unfold ownCore coreOf
  by_cases legal : a.toNat < 5
  · simp [legal, Fin.ext_iff]
  · simp [legal]
    omega

theorem step_of_host_word {s : State} {w : OpWord} {rest : List OpWord} (ph : s.phase = .idle)
    (tape : s.hostIn = w :: rest) : step s = { s with hostIn := rest }.issue .command w := by
  simp only [step, State.transition, ph, State.hostStep, tape]

section
variable {s : State} {w : OpWord} {i : Instr} {c : CoreId} {opcode : Word} {cs : List CoreId} {task : TaskId}

theorem step_of_executor_cmdWord (h : decode (.op w) = .ok i) (ph : s.phase = .inStep c opcode cs)
    (act : s.execAction c opcode = .cmdWord w) : step s = onNext (s.issue .command w) (s.answered i) := by
  simp only [step, State.transition, ph, State.executorStep, act, State.issueInStep, State.noted_wordAnswer h]

theorem step_of_executor_cpuWord (h : decode (.op w) = .ok i) (ph : s.phase = .inStep c opcode cs)
    (act : s.execAction c opcode = .cpuWord w) : step s = onNext (s.issue .cpu w) (s.answered i) := by
  simp only [step, State.transition, ph, State.executorStep, act, State.issueInStep, State.noted_wordAnswer h]

theorem step_of_callback_cmdWord (h : decode (.op w) = .ok i) (ph : s.phase = .callback task)
    (act : s.callbackAction task = .cmdWord w) : step s = onNext (s.issue .command w) (State.withAnswer i) := by
  simp only [step, State.transition, ph, State.callbackStep, act, State.heard_wordAnswer h]

end

/-- Settles O6: the word of each of the four issuers is accepted on its port, and the note is that of the operation. -/
theorem stepRunsDecodedWord : Obligations.StepRunsDecodedWord := by
  intro s w i h
  refine ⟨fun rest ph tape cmd => ?host, fun c opcode cs ph act cmd guest => ?executor,
    fun c opcode cs ph act cpu own => ?core, fun task ph act cmd guest => ?callback⟩
  case host =>
    rw [step_of_host_word ph tape, State.issue_of_accepted h]
    simp [portAccepts, ph, cmd]
  case executor =>
    rw [step_of_executor_cmdWord h ph act, State.issue_of_accepted h]
    simp [portAccepts, ph, cmd, guest]
  case core =>
    rw [step_of_executor_cpuWord h ph act, State.issue_of_accepted h]
    simp [portAccepts, ph, cpu, cpuCoreField_of_decode h, (ownCore_eq_true_iff c _).2 (.inl own)]
  case callback =>
    rw [step_of_callback_cmdWord h ph act, State.issue_of_accepted h]
    simp [portAccepts, ph, cmd, guest]

/-- A CPU word whose core field is no core fails the first check of its operation, whichever it is (R96). -/
theorem operandError_of_noCore {n : Nat} {i : Instr} (cpu : i.format = .cpu) (noCore : 5 ≤ (cpuCoreField i).toNat) :
    operandError n i = some .badCore := by
  have first (a : BitVec 8) (rest : List (Bool × Err)) (h : 5 ≤ a.toNat) :
      firstError ((decide (4 < a.toNat), .badCore) :: rest) = some .badCore :=
    if_pos (decide_eq_true (Nat.lt_of_succ_le h))
  cases i with
  | regRead | regWrite | pcWrite | statusRead | statusWrite | savedStatusRead | savedStatusWrite | bankRegRead
  | bankRegWrite | trap | excReturn | waitIrq =>
    exact first _ _ (noCore.trans_eq (congrArg BitVec.toNat (fieldA_mkWord _ _ _ _)))
  | _ => cases cpu

/-- Settles O9: the port refuses the misplaced words, and the word for no core fails the check of its core. -/
theorem misplacedWordIsOnlyLogged : Obligations.MisplacedWordIsOnlyLogged := by
  intro s w i h
  refine ⟨fun c opcode cs ph act host => ?executor, fun task ph act host => ?callback,
    fun c opcode cs ph act legal other => ?otherCore, fun c opcode cs ph act cpu noCore => ?noCore⟩
  case executor =>
    rw [step_of_executor_cmdWord h ph act, State.issue_of_refused h]
    · rfl
    · simp [portAccepts, ph, host]
  case callback =>
    rw [step_of_callback_cmdWord h ph act, State.issue_of_refused h]
    · rcases Instr.hostOnly_cases host with rfl | rfl <;> rfl
    · simp [portAccepts, ph, host]
  case otherCore =>
    have foreign : ownCore c (fieldA w) = false := by
      rw [Bool.eq_false_iff, ne_eq, ownCore_eq_true_iff]
      omega
    rw [step_of_executor_cpuWord h ph act, State.issue_of_refused h]
    · rfl
    · simp [portAccepts, ph, cpuCoreField_of_decode h, foreign]
  case noCore =>
    have logged : exec i s = s.rejected .badCore i :=
      illegalOperandIsOnlyLogged i s _ (operandError_of_noCore cpu (by rwa [cpuCoreField_of_decode h]))
    rw [step_of_executor_cpuWord h ph act, State.issue_of_accepted h, logged, State.rejected,
      (eq_opWord_of_decode h).2]
    · rfl
    · simp [portAccepts, ph, cpu, cpuCoreField_of_decode h, (ownCore_eq_true_iff c _).2 (.inr noCore)]

end Sys2Proof.Machine
end

section
/-! SUPPORT. The clock and the event queue: what `SCHEDULE`, `READ_CYCLE` and `T_REBASE` leave, the three iterations of
the event phase, and the errors that depend on more than the operands. -/

namespace Sys2Proof.Machine

/-! ## Operations that answer (R100) -/

/-- An operation that leaves `t`, stores nothing and returns nothing completes in `t`. -/
theorem completes_of_respOpen {i : Instr} {s t : State} (h : exec i s = .next t.respOpen) (mem : t.mem = s.mem) :
    Completes i s t :=
  ⟨t.respOpen, h, ⟨_, _, rfl⟩, fun a => congrArg (Memory.byteAt · a) mem⟩

/-- Settles O14: the response register takes `now`. -/
theorem readCycleReturnsNow : Obligations.ReadCycleReturnsNow := fun s => ⟨s.respond s.now, rfl, rfl, fun _ => rfl⟩

/-! ## `SCHEDULE` (R120, R121, R123) -/

/-- `Schedule` inserts at the upper-bound position (R121). -/
theorem State.schedule_eq_withEvent (s : State) (task : TaskId) (delay : Cycle) :
    s.schedule task delay = s.withEvent task delay := by
  rw [State.schedule, insertEvent_eq_upperInsert, State.withEvent]

theorem legalTask_eq_true_iff (n : Nat) (task : TaskId) :
    legalTask n task = true ↔ task.toNat = 1 ∨ task.toNat = 2 ∨ (8 ≤ task.toNat ∧ task.toNat < n) := by
  simp [legalTask_eq, or_assoc]

theorem execSchedule_of_fits {s : State} {task : BitVec 8} {delay : BitVec 64}
    (legal : legalTask s.params.nTasks task = true) (fits : s.now.toNat + delay.toNat < 18446744073709551616) :
    execSchedule task delay s = .next (s.withEvent task delay).respOpen := by
  rw [execSchedule, if_pos legal, if_pos fits, State.schedule_eq_withEvent]

theorem execSchedule_of_overflow {s : State} {task : BitVec 8} {delay : BitVec 64}
    (legal : legalTask s.params.nTasks task = true) (overflow : 18446744073709551616 ≤ s.now.toNat + delay.toNat) :
    execSchedule task delay s = s.faulted .schedOverflow (.schedule task delay) := by
  rw [execSchedule, if_pos legal, if_neg (Nat.not_lt.2 overflow)]

/-- Settles O13: a legal task whose sum fits is scheduled (`execSchedule_of_fits`), at the cycle that the sum in naturals
is. -/
theorem scheduleInsertsUpperBound : Obligations.ScheduleInsertsUpperBound := by
  intro s task delay legal fits
  have due : BitVec.ofNat 64 (s.now.toNat + delay.toNat) = s.now + delay := by
    rw [BitVec.ofNat_add, BitVec.ofNat_toNat, BitVec.ofNat_toNat, BitVec.setWidth_eq, BitVec.setWidth_eq]
  rw [due]
  exact completes_of_respOpen (execSchedule_of_fits ((legalTask_eq_true_iff _ _).2 legal) fits) rfl

/-! ## `T_REBASE` (R128, R129) -/

/-- A cycle that is not in the past, taken relative to `now`, is the difference of the two in naturals. -/
theorem sub_eq_ofNat_of_le {now due : Cycle} (notPast : now ≤ due) :
    due - now = BitVec.ofNat 64 (due.toNat - now.toNat) := by
  rw [← BitVec.toNat_sub_of_le notPast, BitVec.ofNat_toNat, BitVec.setWidth_eq]

/-- The saturating subtraction of R128 is the truncated subtraction of naturals. -/
theorem satSub_eq_ofNat (a b : Cycle) : satSub a b = BitVec.ofNat 64 (a.toNat - b.toNat) := by
  rw [← toNat_satSub, BitVec.ofNat_toNat, BitVec.setWidth_eq]

/-- A rebase moves every event that is not in the past by `now`, and wraps none. -/
theorem map_sub_now_eq {now : Cycle} {q : List Event} (notPast : ∀ e ∈ q, now ≤ e.due) :
    (q.map fun e => { e with due := e.due - now })
      = q.map fun e => ⟨e.task, BitVec.ofNat 64 (e.due.toNat - now.toNat)⟩ :=
  List.map_congr_left fun e he => congrArg (Event.mk e.task) (sub_eq_ofNat_of_le (notPast e he))

/-- A rebase moves the ready-at cycle of every core, and nothing else of its context. -/
theorem State.rebase_cores (s : State) :
    s.rebase.cores = s.cores.map fun k => { k with readyAt := BitVec.ofNat 64 (k.readyAt.toNat - s.now.toNat) } := by
  apply Vector.ext
  intro c hc
  simp [State.rebase, State.core, CpuContext.rebase, satSub_eq_ofNat]

/-- Settles O15: the queue is `map_sub_now_eq`, the contexts are `State.rebase_cores`, and the event that re-arms the task is
due at the horizon because `now` is 0 by then. -/
theorem rebaseShiftsTheAxis : Obligations.RebaseShiftsTheAxis := by
  intro s notPast
  have horizon : s.rebase.now + s.params.rebaseHorizon = s.params.rebaseHorizon := BitVec.zero_add _
  have ran : exec .tRebase s = .next (s.rebase.withEvent 0#8 s.params.rebaseHorizon).respOpen :=
    congrArg (fun t : State => Host.Outcome.next t.respOpen) (State.schedule_eq_withEvent _ _ _)
  rw [← map_sub_now_eq notPast, ← State.rebase_cores]
  rw [State.withEvent, horizon] at ran
  exact completes_of_respOpen ran rfl

/-! ## The event phase (R125, R126, R127) -/

section
variable {s : State} {e : Event} {q : List Event}

/-- A head that is due is removed, and its task runs. -/
theorem step_of_due_head (ph : s.phase = .eventPhase) (head : s.queue = e :: q) (due : e.due ≤ s.now) :
    step s = exec (decodeTask e.task) { s with queue := q } := by
  simp only [step, State.transition, ph, State.eventStep, head, due, if_true, State.dispatch]

/-- A head that is not due ends the event phase. -/
theorem step_of_later_head (ph : s.phase = .eventPhase) (head : s.queue = e :: q) (later : s.now < e.due) :
    step s = .next { s with phase := .loopTop } := by
  simp only [step, State.transition, ph, State.eventStep, head, BitVec.not_le.2 later, if_false]

/-- No event ends the event phase. -/
theorem step_of_no_event (ph : s.phase = .eventPhase) (empty : s.queue = []) :
    step s = .next { s with phase := .loopTop } := by
  simp only [step, State.transition, ph, State.eventStep, empty]

end

/-- Settles O7: the three clauses are the iterations with a due head, with a later head and with no event. -/
theorem stepRunsDueTask : Obligations.StepRunsDueTask := by
  intro s ph
  refine ⟨fun e q i head due decoded => ?_, fun e q head later => step_of_later_head ph head later, step_of_no_event ph⟩
  obtain rfl := Except.ok.inj decoded
  exact step_of_due_head ph head due

/-- Settles O58: no event is in the past, so a head that is due is due now (`TimeInv.due_eq_now`); a later head stays. -/
theorem eventsRunAtTheirDueCycle : Obligations.EventsRunAtTheirDueCycle := by
  intro s e q inv ph head
  refine ⟨fun due => ⟨(inv.due_eq_now head due).symm, step_of_due_head ph head due⟩, fun later t next => ?_⟩
  obtain rfl := Host.Outcome.next.inj ((step_of_later_head ph head later).symm.trans next)
  rfl

/-! ## Errors of the state (R124, R176, R178, R183) -/

/-- The operands of `SCHEDULE` are in order exactly when its task is legal (R123). -/
theorem legalTask_of_operandError {n : Nat} {task : BitVec 8} {delay : BitVec 64}
    (h : operandError n (.schedule task delay) = none) : legalTask n task = true := by
  rw [operandError, ← legalTask_eq] at h
  by_contra illegal
  rw [Bool.not_eq_true] at illegal
  rw [illegal] at h
  cases h

theorem State.withCore_of_legal {a : BitVec 8} {c : CoreId} (legal : coreOf a = some c) (s : State) (i : Instr)
    (f : CoreId → Result) : s.withCore a i f = f c := by
  rw [State.withCore, legal]

theorem State.withBank_of_bank {m : BitVec 5} {b : Bank} (bank : bankOf m = some b) (s : State) (i : Instr)
    (f : Bank → Result) : s.withBank m i f = f b := by
  rw [State.withBank, bank]

theorem validMode_eq_false {m : BitVec 5} (invalid : m ∉ modes) : validMode m = false := by
  rwa [← validMode_iff, Bool.not_eq_true] at invalid

/-- A mode that is not in the table of R31 has no bank, and an operation that needs it is a fault (R176). -/
theorem State.withBank_of_invalid {m : BitVec 5} (invalid : m ∉ modes) (s : State) (i : Instr) (f : Bank → Result) :
    s.withBank m i f = s.faulted .badMode i := by
  rw [State.withBank, Option.not_isSome_iff_eq_none.1 (ne_true_of_eq_false (validMode_eq_false invalid))]

section
variable {core : BitVec 8} {c : CoreId} {s : State}

theorem execStatusWrite_of_invalid (legal : coreOf core = some c) {value : Word} (invalid : modeOf value ∉ modes) :
    execStatusWrite core value s = s.faulted .badMode (.statusWrite core value) := by
  rw [execStatusWrite, State.withCore_of_legal legal, validMode_eq_false invalid, if_neg Bool.false_ne_true]

theorem execBankRegRead_of_invalid (legal : coreOf core = some c) {mode : BitVec 5} (invalid : mode ∉ modes)
    (index : BitVec 4) : execBankRegRead core index mode s = s.faulted .badMode (.bankRegRead core index mode) := by
  rw [execBankRegRead, State.withCore_of_legal legal, State.withBank_of_invalid invalid]

theorem execBankRegWrite_of_invalid (legal : coreOf core = some c) {mode : BitVec 5} (invalid : mode ∉ modes)
    (index : BitVec 4) (value : Word) :
    execBankRegWrite core index mode value s = s.faulted .badMode (.bankRegWrite core index mode value) := by
  rw [execBankRegWrite, State.withCore_of_legal legal, State.withBank_of_invalid invalid]

/-- USR and SYS have no saved status to return to (R178, R183). -/
theorem execExcReturn_of_normal (legal : coreOf core = some c) (normal : normalMode (modeOf (s.core c).status))
    (target : Word) : execExcReturn core target s = s.faulted .badSpsr (.excReturn core target) := by
  rw [execExcReturn, State.withCore_of_legal legal, State.withBank_of_bank ((bankOf_eq_normal_iff _).2 normal)]

/-- A saved status whose mode has no bank is not restored (R183). -/
theorem execExcReturn_of_invalid (legal : coreOf core = some c) {b : PrivBank}
    (bank : bankOf (modeOf (s.core c).status) = some (.priv b)) (invalid : modeOf ((s.core c).saved b) ∉ modes)
    (target : Word) : execExcReturn core target s = s.faulted .badMode (.excReturn core target) := by
  rw [execExcReturn, State.withCore_of_legal legal, State.withBank_of_bank bank]
  exact if_neg (ne_true_of_eq_false (validMode_eq_false invalid))

/-- USR and SYS have no saved status to write (R178, R179). -/
theorem execSavedStatusWrite_of_normal (legal : coreOf core = some c)
    (normal : normalMode (modeOf (s.core c).status)) (value : Word) :
    execSavedStatusWrite core value s = s.rejected .badSpsr (.savedStatusWrite core value) := by
  rw [execSavedStatusWrite, State.withCore_of_legal legal, State.withBank_of_bank ((bankOf_eq_normal_iff _).2 normal)]

end

/-- Settles O11: in each clause the meaning of the operation comes to the branch that only logs. -/
theorem errorsOfTheStateAreOnlyLogged : Obligations.ErrorsOfTheStateAreOnlyLogged := by
  refine fun s => ⟨fun task delay operands overflow => ?schedule, fun core c legal => ⟨fun value invalid => ?statusWrite,
    fun index mode invalid => ?bankRead, fun index mode value invalid => ?bankWrite, fun target normal => ?noSaved,
    fun target b bank invalid => ?badSaved, fun value normal => ?savedWrite⟩⟩
  case schedule => exact execSchedule_of_overflow (legalTask_of_operandError operands) overflow
  case statusWrite => exact execStatusWrite_of_invalid legal invalid
  case bankRead => exact execBankRegRead_of_invalid legal invalid index
  case bankWrite => exact execBankRegWrite_of_invalid legal invalid index value
  case noSaved => exact execExcReturn_of_normal legal normal target
  case badSaved => exact execExcReturn_of_invalid legal bank invalid target
  case savedWrite => exact execSavedStatusWrite_of_normal legal normal value

end Sys2Proof.Machine
end

section
/-! SUPPORT. The execution engine: its operations, the tests of its loop, the turn of a core, the end of a CPU step and
the advance of the clock. -/

namespace Sys2Proof.Machine

/-! ## `RUN`, `T_END_FRAME` and `T_CORE_CONFIG` (R140, R157, R158) -/

/-- Settles O16: each meaning writes its fields and leaves the response open. -/
theorem engineOperations : Obligations.EngineOperations :=
  fun _ => ⟨completes_of_respOpen rfl rfl, completes_of_respOpen rfl rfl, completes_of_respOpen rfl rfl⟩

/-! ## The tests of the loop (R141, R142, R143, R155) -/

section
variable {s : State}

theorem step_of_running (ph : s.phase = .loopTop) (on : s.running = true) :
    step s = .next { s with phase := .passTop } := by
  simp only [step, State.transition, ph, State.loopStep, on, if_true]

/-- Without `running` the engine yields to the host, and `RUN` returns (R141, R100). -/
theorem step_of_stopped (ph : s.phase = .loopTop) (off : s.running = false) :
    step s = .next ({ s with phase := .idle }.emit .yield).respOpen := by
  simp only [step, State.transition, ph, State.loopStep, off, Bool.false_eq_true, if_false]

variable {e : Event} {q : List Event}

theorem step_of_new_pass (ph : s.phase = .passTop) (head : s.queue = e :: q) (later : s.now < e.due) :
    step s = .next { s with phase := .visit (visitOrder s.fourCore) } := by
  simp only [step, State.transition, ph, State.passStep, head, later, if_true]

/-- With a head that is due, `now` jumps to it and the event phase begins (R155). -/
theorem step_of_jump (ph : s.phase = .passTop) (head : s.queue = e :: q) (due : e.due ≤ s.now) :
    step s = .next { s with now := e.due, phase := .eventPhase } := by
  simp only [step, State.transition, ph, State.passStep, head, BitVec.not_lt.2 due, if_false]

end

/-- Settles O18: the two tests of the loop, with their two outcomes each. -/
theorem engineLoopTests : Obligations.EngineLoopTests :=
  fun _ => ⟨step_of_running, fun ph off => ⟨_, _, step_of_stopped ph off⟩, fun _ _ => step_of_new_pass,
    fun _ _ => step_of_jump⟩

/-! ## The turn of a core (R144 to R147) -/

theorem State.eligible_eq_true_iff (s : State) (c : CoreId) :
    s.eligible c = true ↔ (s.core c).halted = 0#8 ∧ (s.core c).readyAt ≤ s.now := by
  simp [State.eligible, CpuContext.isHalted]

theorem State.eligible_eq_false_iff (s : State) (c : CoreId) :
    s.eligible c = false ↔ (s.core c).halted ≠ 0#8 ∨ s.now < (s.core c).readyAt := by
  rw [← Bool.not_eq_true, State.eligible_eq_true_iff, not_and_or, BitVec.not_le]

section
variable {s : State} {c : CoreId} {cs : List CoreId}

theorem step_of_eligible (ph : s.phase = .visit (c :: cs)) (eligible : s.eligible c = true) :
    step s = .next (s.beginStep c cs) := by
  simp only [step, State.transition, ph, State.visitStep, eligible, if_true]

theorem step_of_not_eligible (ph : s.phase = .visit (c :: cs)) (idle : s.eligible c = false) :
    step s = .next { s with phase := .visit cs } := by
  simp only [step, State.transition, ph, State.visitStep, idle, Bool.false_eq_true, if_false]

end

/-- Settles O19: the turn is decided by `State.eligible`, and `State.beginStep` is the one fetch, the shift of the slots and
the call of the executor. -/
theorem turnOfACore : Obligations.TurnOfACore := by
  refine fun s c cs ph => ⟨fun awake ready => ?begins, fun idle => ?skipped⟩
  case begins =>
    exact ⟨_, step_of_eligible ph ((s.eligible_eq_true_iff c).2 ⟨awake, ready⟩), _, rfl⟩
  case skipped => exact step_of_not_eligible ph ((s.eligible_eq_false_iff c).2 idle)

/-! ## Where the executor is entered (R144, R146) -/

/-- The reset sequence ends idle, or waits for its input (R291, R292). -/
theorem State.enterReset_phase (s : State) : s.enterReset.phase = .idle ∨ s.enterReset.phase = .inReset := by
  cases boot : s.bootImageOk
  · rw [State.enterReset, if_neg (by simp [boot])]
    exact .inr rfl
  · rw [State.enterReset_running boot]
    obtain ⟨_, _, _, _, e⟩ := s.resetSequence_frame
    rw [e]
    exact .inl rfl

/-- A task leaves the phase as it is, or calls its callback (R126). -/
theorem TaskTo.phase_cases {s t : State} {b : TaskId} (m : TaskTo s b t) :
    t.phase = s.phase ∨ t.phase = .callback b := by
  cases m with
  | rebase | endFrame | coreConfig => exact .inl rfl
  | deliver c m => exact .inl m.phase_eq
  | peripheral => exact .inr rfl

theorem SameButNotes.phase_eq {s t : State} (k : SameButNotes s t) : t.phase = s.phase := by
  obtain ⟨_, _, rfl⟩ := k
  rfl

/-- A step that ends in a CPU step was in it already, or is the turn of that core, which is eligible (R144, R146). -/
theorem GoesTo.inStep_cases {s t : State} {c : CoreId} {opcode : Word} {cs : List CoreId} (g : GoesTo s t)
    (entered : t.phase = .inStep c opcode cs) :
    s.phase = t.phase
      ∨ (s.phase = .visit (c :: cs) ∧ s.eligible c = true ∧ opcode = (s.core c).pipe0) := by
  have noReset : ∀ u : State, u.enterReset.phase ≠ .inStep c opcode cs := fun u ph => by
    rcases u.enterReset_phase with h | h <;> rw [h] at ph <;> cases ph
  cases g with
  | begin ph eligible =>
    cases entered
    exact .inr ⟨ph, eligible, rfl⟩
  | silent => exact .inl rfl
  | waiting | hostReset => exact absurd entered (noReset _)
  | hostRun | again | yields | newPass | jump | skip | advance | returns | unrecognized | eventsDone | callbackDone =>
    cases entered
  | command i f o k m n => exact .inl (by rw [n.phase_eq, (exec_moves_cmd f o m).phase_eq, k.same.phase])
  | cpuWord i f _ _ m n => exact .inl (by rw [n.phase_eq, (exec_moves_cpu f m).phase_eq])
  | badWord w k n => exact .inl (by rw [n.phase_eq, State.reject_phase, k.same.phase])
  | reads _ _ _ k | writes _ _ _ _ _ k | callbackReads _ _ _ k | callbackWrites _ _ _ _ _ k =>
    exact .inl k.phase_eq.symm
  | event ph _ _ m =>
    rcases (exec_taskTo m).phase_cases with h | h
    · exact .inl h.symm
    · rw [h] at entered; cases entered

/-- Settles O20, by `GoesTo.inStep_cases`: a step from outside every CPU step that enters one is the turn of an eligible
core. -/
theorem onlyEligibleCoresExecute : Obligations.OnlyEligibleCoresExecute := by
  intro s t c opcode cs h entered outside
  rcases (step_goesTo h).inStep_cases entered with same | ⟨turn, eligible, slot⟩
  · exact absurd (same.trans entered) (outside c opcode cs)
  · obtain ⟨awake, ready⟩ := (s.eligible_eq_true_iff c).1 eligible
    exact ⟨turn, awake, ready, slot⟩

/-! ## The end of a CPU step (R150 to R152) -/

/-- `Weight(c)` is 2 for the management core, which is core 4, and 1 for every other (R151). -/
theorem weight_eq (c : CoreId) : weight c = if c.val = 4 then 2#64 else 1#64 := by
  revert c; decide

/-- The charge of a cost in 64 bits is the product in naturals (R151). -/
theorem weight_mul_cost (c : CoreId) (cost : BitVec 32) :
    weight c * cost.setWidth 64 = BitVec.ofNat 64 ((if c.val = 4 then 2 else 1) * cost.toNat) := by
  rw [weight_eq, BitVec.ofNat_mul, BitVec.ofNat_toNat]
  split <;> rfl

/-- The costs within the contract of R150, as numbers. -/
theorem cost_bounds_iff (cost : BitVec 32) :
    (1#32 ≤ cost ∧ cost ≤ 0x7FFFFFFF#32) ↔ 1 ≤ cost.toNat ∧ cost.toNat < 2147483648 := by
  simp only [BitVec.le_def, BitVec.toNat_ofNat]
  omega

theorem State.returnCost_of_kept {cost : BitVec 32} (kept : 1 ≤ cost.toNat ∧ cost.toNat < 2147483648) (s : State)
    (c : CoreId) (cs : List CoreId) : s.returnCost c cs cost = .next { s.charge c cost with phase := .visit cs } :=
  if_pos ((cost_bounds_iff cost).2 kept)

/-- A cost outside the contract is a fault (R150, U18). -/
theorem State.returnCost_of_broken {cost : BitVec 32} (broken : ¬ (1 ≤ cost.toNat ∧ cost.toNat < 2147483648))
    (s : State) (c : CoreId) (cs : List CoreId) : s.returnCost c cs cost = .fault .executorCost :=
  if_neg ((cost_bounds_iff cost).not.2 broken)

section
variable {s : State} {c : CoreId} {opcode : Word} {cs : List CoreId}

theorem step_of_done {cost : BitVec 32} (ph : s.phase = .inStep c opcode cs)
    (act : s.execAction c opcode = .done cost) : step s = s.returnCost c cs cost := by
  simp only [step, State.transition, ph, State.executorStep, act]

theorem step_of_unrecognized (ph : s.phase = .inStep c opcode cs) (act : s.execAction c opcode = .unrecognized)
    (clean : s.stepChanged = false) : step s = .next (s.returnUnrecognized c opcode cs) := by
  simp only [step, State.transition, ph, State.executorStep, act, State.returnUnrecognizedIfClean, clean,
    Bool.false_eq_true, if_false]

/-- `Unrecognized` after a change of state is a fault (R150 (c), U18). -/
theorem step_of_late_unrecognized (ph : s.phase = .inStep c opcode cs)
    (act : s.execAction c opcode = .unrecognized) (changed : s.stepChanged = true) :
    step s = .fault .executorUnrecognized := by
  simp only [step, State.transition, ph, State.executorStep, act, State.returnUnrecognizedIfClean, changed, if_true]

end

/-- Settles O21: the two returns of the executor, each within and outside its contract; the charge is
`weight_mul_cost`. -/
theorem stepIsCharged : Obligations.StepIsCharged := by
  refine fun s c opcode cs ph => ⟨fun cost act low high => ?cost, fun act clean => ?unrecognized,
    fun cost act out => ?badCost, fun act changed => step_of_late_unrecognized ph act changed⟩
  case cost =>
    rw [step_of_done ph act, State.returnCost_of_kept ⟨low, high⟩, State.charge, weight_mul_cost]
    rfl
  case unrecognized =>
    have one : weight c * (1#32).setWidth 64 = if c.val = 4 then 2#64 else 1#64 := by
      rw [weight_eq]; exact BitVec.mul_one _
    rw [step_of_unrecognized ph act clean, State.returnUnrecognized, State.charge, one]
    rfl
  case badCost => rw [step_of_done ph act, State.returnCost_of_broken (by omega)]

/-! ## `AdvanceClock` (R153) -/

theorem toNat_minCycle (a b : Cycle) : (minCycle a b).toNat = min a.toNat b.toNat := by
  simp only [minCycle, BitVec.le_def, Nat.min_def, apply_ite BitVec.toNat]

theorem toNat_maxCycle (a b : Cycle) : (maxCycle a b).toNat = max a.toNat b.toNat := by
  simp only [maxCycle, BitVec.le_def, Nat.max_def, apply_ite BitVec.toNat]

/-- The scan of R153 is a minimum over the cores that are not halted. -/
theorem State.toNat_leastReady (s : State) (bound : Cycle) (cs : List CoreId) :
    (s.leastReady bound cs).toNat
      = ((cs.filter fun c => (s.core c).halted == 0#8).map fun c => (s.core c).readyAt.toNat).foldr min bound.toNat := by
  induction cs with
  | nil => rfl
  | cons c cs ih =>
    rw [State.leastReady, CpuContext.isHalted]
    by_cases awake : (s.core c).halted = 0#8
    · simp [awake, toNat_minCycle, ih]
    · simp [awake, ih]

theorem step_of_pass_done {s : State} {e : Event} {q : List Event} (ph : s.phase = .visit [])
    (head : s.queue = e :: q) :
    step s = .next
      { s with now := maxCycle s.now (s.leastReady e.due (visitOrder s.fourCore)), phase := .passTop } := by
  simp only [step, State.transition, ph, State.visitStep, State.advanceClock, head]

/-- Settles O24: the maximum and the minimum of cycles are those of the naturals (`State.toNat_leastReady`). -/
theorem advanceClock : Obligations.AdvanceClock := by
  intro s e q ph head
  exact ⟨_, step_of_pass_done ph head, by rw [toNat_maxCycle, State.toNat_leastReady, visitOrder]⟩

end Sys2Proof.Machine
end

section
/-! SUPPORT. Registers, modes and the CPU port: what the operations of `42_registers_modes.md` come to once their operands
are legal, and the refill of a pipeline and the check of a line up to the count of free values. -/

namespace Sys2Proof.Machine

/-! ## Operations of the CPU port that answer (R100) -/

/-- A CPU word stores nothing, so it completes wherever its meaning leads, whatever free values its fetches used up. -/
theorem completes_of_cpu {i : Instr} {s t u : State} (cpu : i.format = .cpu) (h : exec i s = .next t.respOpen)
    (same : SameButCount t u) : Completes i s u := by
  have mem : t.respOpen.mem = s.mem := (exec_moves_cpu cpu h).mem_eq
  obtain ⟨n, rfl⟩ := same
  exact ⟨_, h, ⟨_, _, rfl⟩, fun a => congrArg (Memory.byteAt · a) mem⟩

/-- A read of a 32-bit register that only writes the response returns the register, zero-extended. -/
theorem returns_of_zext {i : Instr} {s : State} {v : Word} (h : exec i s = .next (s.respond (0#32 ++ v))) :
    Returns i s s (v.setWidth 64) :=
  ⟨_, h, by rw [zext_eq_setWidth]; rfl, fun _ => rfl⟩

/-! ## States that agree but for the count of free values -/

theorem SameButCount.refl (s : State) : SameButCount s s := ⟨_, rfl⟩

/-- The TaskId of a delivery is 3 more than the number of its target (R93, R202). -/
theorem deliverTask_eq_ofNat (t : CoreId) : deliverTask t = BitVec.ofNat 8 (3 + t.val) := by
  rw [BitVec.ofNat_add, deliverTask]

/-- `Kick` in the terms of R202. -/
theorem State.kick_eq_kicked (s : State) (t : CoreId) : s.kick t = s.kicked t := by
  rw [State.kick, State.kicked, State.schedule_eq_withEvent, deliverTask_eq_ofNat]
  cases s.guard[t] <;> rfl

/-- `IrqCheck` in the terms of R207. -/
theorem State.irqCheck_eq_checked (s : State) (t : CoreId) : s.irqCheck t = s.checked t := by
  rw [State.irqCheck, State.kick_eq_kicked, State.checked]

/-- No line and no guard depends on the count of free values. -/
theorem SameButCount.checked {s t : State} (same : SameButCount s t) (c : CoreId) :
    SameButCount (s.checked c) (t.checked c) := by
  obtain ⟨n, rfl⟩ := same
  have line : State.line { t with freeCount := n } c = t.line c := rfl
  rw [State.checked, State.checked, line]
  by_cases asserted : t.line c = true
  · rw [if_pos asserted, if_pos asserted, State.kicked, State.kicked]
    by_cases free : t.guard[c] = false
    · rw [if_pos free, if_pos free]
      exact ⟨n, rfl⟩
    · rw [if_neg free, if_neg free]
      exact ⟨n, rfl⟩
  · rw [if_neg asserted, if_neg asserted]
    exact ⟨n, rfl⟩

/-- I going from 1 to 0 asks for a delivery, and nothing else does (R174, R183, R207). -/
theorem SameButCount.irqCheckIfUnmasked {s t : State} (same : SameButCount s t) (c : CoreId) (old new : Word) :
    SameButCount (s.irqCheckIfUnmasked c old new)
      (if irqMasked old = true ∧ irqMasked new = false then t.checked c else t) := by
  rw [State.irqCheckIfUnmasked, State.irqCheck_eq_checked]
  by_cases falls : irqMasked old = true ∧ irqMasked new = false
  · rw [if_pos falls, if_pos (by simp [falls])]
    exact same.checked c
  · rw [if_neg falls, if_neg (by simpa using falls)]
    exact same

/-! ## The operations with legal operands -/

/-- The width of the current encoding in bytes (R105). -/
theorem bytes_fetchWidth (status : Word) :
    (fetchWidth status).bytes = if compact status = true then 2#32 else 4#32 := by
  rw [fetchWidth]
  cases compact status <;> rfl

section
variable {s : State} {core : BitVec 8} {c : CoreId}

theorem execRegRead_of_bank (legal : coreOf core = some c) {b : Bank}
    (bank : bankOf (modeOf (s.core c).status) = some b) (index : BitVec 4) :
    execRegRead core index s = s.readBanked c b index := by
  rw [execRegRead, State.withCore_of_legal legal, State.withBank_of_bank bank]

theorem execBankRegRead_of_bank (legal : coreOf core = some c) {mode : BitVec 5} {b : Bank}
    (bank : bankOf mode = some b) (index : BitVec 4) :
    execBankRegRead core index mode s = s.readBanked c b index := by
  rw [execBankRegRead, State.withCore_of_legal legal, State.withBank_of_bank bank]

theorem execRegWrite_of_bank (legal : coreOf core = some c) {b : Bank}
    (bank : bankOf (modeOf (s.core c).status) = some b) (index : BitVec 4) (value : Word) :
    execRegWrite core index value s = s.writeBanked c b index value := by
  rw [execRegWrite, State.withCore_of_legal legal, State.withBank_of_bank bank]

theorem execBankRegWrite_of_bank (legal : coreOf core = some c) {mode : BitVec 5} {b : Bank}
    (bank : bankOf mode = some b) (index : BitVec 4) (value : Word) :
    execBankRegWrite core index mode value s = s.writeBanked c b index value := by
  rw [execBankRegWrite, State.withCore_of_legal legal, State.withBank_of_bank bank]

theorem execStatusRead_of_legal (legal : coreOf core = some c) :
    execStatusRead core s = .next (s.respond (0#32 ++ (s.core c).status)) := by
  rw [execStatusRead, State.withCore_of_legal legal]

theorem execPcWrite_of_legal (legal : coreOf core = some c) (target : Word) :
    execPcWrite core target s = .next (s.branch c target).respOpen := by
  rw [execPcWrite, State.withCore_of_legal legal]

theorem execStatusWrite_of_valid (legal : coreOf core = some c) {value : Word} (valid : modeOf value ∈ modes) :
    execStatusWrite core value s = .next (s.statusWrite c value).respOpen := by
  rw [execStatusWrite, State.withCore_of_legal legal, if_pos ((validMode_iff _).2 valid)]

theorem execSavedStatusRead_of_priv (legal : coreOf core = some c) {b : PrivBank}
    (bank : bankOf (modeOf (s.core c).status) = some (.priv b)) :
    execSavedStatusRead core s = .next (s.respond (0#32 ++ (s.core c).saved b)) := by
  rw [execSavedStatusRead, State.withCore_of_legal legal, State.withBank_of_bank bank]

/-- USR and SYS have no saved status to read (R178). -/
theorem execSavedStatusRead_of_normal (legal : coreOf core = some c)
    (normal : normalMode (modeOf (s.core c).status)) :
    execSavedStatusRead core s = .next (s.reject .badSpsr (opWord (.savedStatusRead core))).respOpen := by
  rw [execSavedStatusRead, State.withCore_of_legal legal, State.withBank_of_bank ((bankOf_eq_normal_iff _).2 normal)]

theorem execSavedStatusWrite_of_priv (legal : coreOf core = some c) {b : PrivBank}
    (bank : bankOf (modeOf (s.core c).status) = some (.priv b)) (value : Word) :
    execSavedStatusWrite core value s = .next (s.setCore c ((s.core c).withSaved b value)).respOpen := by
  rw [execSavedStatusWrite, State.withCore_of_legal legal, State.withBank_of_bank bank]

theorem execTrap_of_legal (legal : coreOf core = some c) {exc : BitVec 3} {x : Exc} (known : excOf exc = some x)
    (back : Word) :
    execTrap core exc back s
      = .next ((s.setCore c { s.core c with pc := (s.core c).pc - back }).excEntry c x).respOpen := by
  rw [execTrap, State.withCore_of_legal legal, known]

theorem execExcReturn_of_valid (legal : coreOf core = some c) {b : PrivBank}
    (bank : bankOf (modeOf (s.core c).status) = some (.priv b)) (valid : modeOf ((s.core c).saved b) ∈ modes)
    (target : Word) :
    execExcReturn core target s = .next (s.excReturn c ((s.core c).saved b) target).respOpen := by
  rw [execExcReturn, State.withCore_of_legal legal, State.withBank_of_bank bank]
  exact if_pos ((validMode_iff _).2 valid)

end

/-! ## Reads (R170, R173, R180) -/

/-- The logical register 15 of every mode is `pc` (R31). -/
theorem phys_fifteen (b : Bank) : phys b 15#4 = .pc := rfl

/-- Settles O26: each read answers the register it names, and `zext_eq_setWidth` is the extension. -/
theorem registerReads : Obligations.RegisterReads := by
  intro s core c legal
  refine ⟨fun index b bank => ?current, fun index mode b bank => ?given, fun b => ?pc, ?status⟩
  case current => exact returns_of_zext (execRegRead_of_bank legal bank index)
  case given => exact returns_of_zext (execBankRegRead_of_bank legal bank index)
  case pc => rw [phys_fifteen, CpuContext.readSlot]
  case status => exact returns_of_zext (execStatusRead_of_legal legal)

/-! ## Writes of a general register (R171, R181) -/

theorem State.writeBanked_of_ne {index : BitVec 4} (general : index ≠ 15#4) (s : State) (c : CoreId) (b : Bank)
    (value : Word) :
    s.writeBanked c b index value = .next (s.setCore c ((s.core c).writeSlot (phys b index) value)).respOpen :=
  if_neg general

/-- Index 15 is a branch. -/
theorem State.writeBanked_fifteen (s : State) (c : CoreId) (b : Bank) (value : Word) :
    s.writeBanked c b 15#4 value = .next (s.branch c value).respOpen :=
  if_pos rfl

/-- Writing a slot other than `pc` changes the register files only. -/
theorem CpuContext.writeSlot_only_files (k : CpuContext) {p : Slot} (general : p ≠ .pc) (v : Word) :
    let l := k.writeSlot p v
    l = { k with normal := l.normal, fiq := l.fiq, irq := l.irq, svc := l.svc, abt := l.abt, und := l.und } := by
  cases p with
  | normal | fiq | irq | svc | abt | und => rfl
  | pc => exact absurd rfl general

/-- Settles O27: both operations write the slot of the bank's index, and by the bank table (`bankTable`) a logical register
is that slot exactly when it is the same register. -/
theorem registerWriteTouchesOneSlot : Obligations.RegisterWriteTouchesOneSlot := by
  intro s core c index value m i legal general valid operation
  obtain ⟨b, bank⟩ := bankOf_of_mem valid
  have shared : ∀ {n d j}, bankOf n = some d → (phys b index = phys d j ↔ sameRegister m index n j) :=
    fun other => bankTable.1 m _ b _ bank other index _
  refine ⟨(s.core c).writeSlot (phys b index) value, ?completes, fun n d j other same => ?written,
    fun n d j other differ => ?kept, CpuContext.writeSlot_only_files _ (phys_ne_pc b index general) value⟩
  case completes =>
    have wrote := State.writeBanked_of_ne general s c b value
    rcases operation with ⟨rfl, rfl⟩ | rfl
    · exact completes_of_cpu rfl ((execRegWrite_of_bank legal bank index value).trans wrote) (.refl _)
    · exact completes_of_cpu rfl ((execBankRegWrite_of_bank legal bank index value).trans wrote) (.refl _)
  case written => rw [CpuContext.readSlot_writeSlot, if_pos ((shared other).2 same)]
  case kept => rw [CpuContext.readSlot_writeSlot, if_neg fun e => differ ((shared other).1 e)]

/-! ## Branches (R149, R172) -/

/-- Settles O28: the three operations are one branch, which is a redirection (`State.flush_redirected`). -/
theorem branchRefillsThePipeline : Obligations.BranchRefillsThePipeline := by
  intro s core c target legal
  have refilled : SameButCount (s.branch c target) (s.redirected c (s.core c) target) :=
    State.flush_redirected s c (s.core c) target
  refine ⟨?pcWrite, fun valid => ?regWrite, fun m valid => ?bankRegWrite⟩
  case pcWrite => exact completes_of_cpu rfl (execPcWrite_of_legal legal target) refilled
  case regWrite =>
    obtain ⟨b, bank⟩ := bankOf_of_mem valid
    exact completes_of_cpu rfl
      ((execRegWrite_of_bank legal bank 15#4 target).trans (s.writeBanked_fifteen c b target)) refilled
  case bankRegWrite =>
    obtain ⟨b, bank⟩ := bankOf_of_mem valid
    exact completes_of_cpu rfl
      ((execBankRegWrite_of_bank legal bank 15#4 target).trans (s.writeBanked_fifteen c b target)) refilled

/-! ## The status and the saved statuses (R174, R177 to R179) -/

/-- Settles O29: a switch of mode or encoding is a redirection to the next sequential instruction, by the old width
(`bytes_fetchWidth`); the check of the line follows in both cases. -/
theorem statusWriteSwitchesMode : Obligations.StatusWriteSwitchesMode := by
  intro s core c value legal valid k t
  refine completes_of_cpu rfl (execStatusWrite_of_valid legal valid) (SameButCount.irqCheckIfUnmasked ?_ c _ _)
  simp only [t, k]
  split
  · rw [← bytes_fetchWidth]
    exact State.flush_redirected s c { s.core c with status := value } _
  · exact .refl _

/-- Writing a saved status changes the saved statuses only. -/
theorem CpuContext.withSaved_only_saved (k : CpuContext) (b : PrivBank) (v : Word) :
    let l := k.withSaved b v
    l = { k with
          savedFiq := l.savedFiq, savedIrq := l.savedIrq, savedSvc := l.savedSvc
          savedAbt := l.savedAbt, savedUnd := l.savedUnd } := by
  cases b <;> rfl

/-- Settles O30: the current bank selects the saved status, and a mode of the bank NORMAL has none. -/
theorem savedStatusOfTheCurrentBank : Obligations.SavedStatusOfTheCurrentBank := by
  intro s core c legal
  refine ⟨fun b bank => ⟨?read, fun value => ⟨(s.core c).withSaved b value, ?write, ?written, fun d other => ?kept,
    CpuContext.withSaved_only_saved _ b value⟩⟩, fun normal => ?none⟩
  case read => exact returns_of_zext (execSavedStatusRead_of_priv legal bank)
  case write => exact completes_of_cpu rfl (execSavedStatusWrite_of_priv legal bank value) (.refl _)
  case written => rw [CpuContext.saved_withSaved, if_pos rfl]
  case kept => rw [CpuContext.saved_withSaved, if_neg other.symm]
  case none => exact completes_of_cpu rfl (execSavedStatusRead_of_normal legal normal) (.refl _)

/-! ## `TRAP` and `EXC_RETURN` (R182, R183, R253) -/

/-- With 4 taken off `pc`, the link value of R252 is one instruction below `pc` in either encoding (R253). -/
theorem sub_four_add_link (pc : Word) (narrow : Bool) :
    pc - 4#32 + (if narrow = true then 2#32 else 0#32) = pc - (if narrow = true then 2#32 else 4#32) := by
  cases narrow
  · exact BitVec.add_zero _
  · simp only [if_true]
    bv_omega

/-- Settles O33: the entry is `ExcEntry` from the lowered `pc`, and the link value is `sub_four_add_link`. -/
theorem trapEntersTheException : Obligations.TrapEntersTheException := by
  intro s core c exc x back legal known k
  refine ⟨completes_of_cpu rfl (execTrap_of_legal legal known back) (.refl _), ?_⟩
  rintro rfl
  exact sub_four_add_link (s.core c).pc (compact (s.core c).status)

/-- Settles O34: the return is a redirection with the restored status, and the check of the line follows. -/
theorem exceptionReturnRestores : Obligations.ExceptionReturnRestores := by
  intro s core c target b legal bank valid k t
  have refilled := State.flush_redirected s c { s.core c with status := (s.core c).saved b } target
  exact completes_of_cpu rfl (execExcReturn_of_valid legal bank valid target)
    (refilled.irqCheckIfUnmasked c (s.core c).status ((s.core c).saved b))

end Sys2Proof.Machine
end

section
/-! SUPPORT. The interrupt controller (`43_interrupt_controller.md`): the lines, sends and software-generated
interrupts, the controller's registers, deliveries, and the commands that halt cores and start and stop the extra
ones. -/

namespace Sys2Proof.Machine

/-! ## Operations that answer (R100) -/

/-- A command other than `RUN` and `RESET` stores nothing, so it completes where its meaning leads. -/
theorem completes_of_cmd {i : Instr} {s t : State} (cmd : i.format = .cmd) (port : i.hostOnly = false)
    (h : exec i s = .next t.respOpen) : Completes i s t :=
  completes_of_respOpen h (exec_moves_cmd cmd port h).mem_eq

/-- A task stores nothing, so it completes where its meaning leads. -/
theorem completes_of_task {b : TaskId} {s t : State} (h : exec (decodeTask b) s = .next t.respOpen) :
    Completes (decodeTask b) s t :=
  completes_of_respOpen h (exec_taskTo h).mem_eq

/-! ## Legal operands, by number (R96, R97) -/

theorem symOf_of_toNat {a : BitVec 8} {c : SymId} (h : a.toNat = c.val) : symOf a = some c := by
  simp [symOf, h]

theorem State.withSym_of_legal {a : BitVec 8} {c : SymId} (legal : symOf a = some c) (s : State) (i : Instr)
    (f : SymId → Result) : s.withSym a i f = f c := by
  rw [State.withSym, legal]

theorem State.withType_of_toNat {type : BitVec 16} {y : IrqType} (h : type.toNat = y.val) (s : State) (i : Instr)
    (f : IrqType → Result) : s.withType type i f = f y := by
  have known : symTypeOf type = some y := by simp [symTypeOf, h]
  rw [State.withType, known]

theorem State.withReason_of_toNat {reason : BitVec 8} {r : Fin 8} (h : reason.toNat = r.val) (s : State) (i : Instr)
    (f : Fin 8 → Result) : s.withReason reason i f = f r := by
  have known : reasonOf reason = some r := by simp [reasonOf, h]
  rw [State.withReason, known]

/-- The extra cores are numbered from 2 (R26, R43). -/
theorem State.withExtra_of_toNat {a : BitVec 8} {e : Fin 2} (h : a.toNat = e.val + 2) (s : State) (i : Instr)
    (f : Fin 2 → Result) : s.withExtra a i f = f e := by
  have known : ∀ (a : BitVec 8) (e : Fin 2), a.toNat = e.val + 2 → extraOf a = some e := by decide
  rw [State.withExtra, known a e h]

/-- A field of one bit as a flag. -/
theorem getLsbD_zero_eq_decide (value : BitVec 1) : value.getLsbD 0 = decide (value = 1#1) := by
  revert value; decide

/-! ## The lines (R204) -/

theorem State.line_mgmt (s : State) : s.line 4 = s.mgmtLine := rfl

theorem State.line_castSucc (s : State) (c : SymId) : s.line c.castSucc = s.symLine c := dif_pos c.isLt

theorem State.symLine_eq_true_iff (s : State) (c : SymId) :
    s.symLine c = true ↔
      s.distEnable = true ∧ s.sym[c].localEnable = true
        ∧ ∃ y : IrqType, s.sym[c].pend.getLsbD y.val = true ∧ s.sym[c].enab.getLsbD y.val = true := by
  rw [← and_ne_zero_iff, State.symLine, Bool.and_eq_true, Bool.and_eq_true, and_assoc, State.symIrq]

/-- Settles O35: a bit of the conjunction of two vectors is set exactly when it is set in both (`and_ne_zero_iff`), and
`Kick` is `State.kick_eq_kicked`. -/
theorem lineAndKick : Obligations.LineAndKick := by
  refine fun s => ⟨?_, fun c => ?_, s.kick_eq_kicked⟩
  · rw [State.line_mgmt]
    exact and_ne_zero_iff s.mgmtPending s.mgmtEnable
  · rw [State.line_castSucc]
    exact s.symLine_eq_true_iff c

/-! ## Sends (R201, R202, R206) -/

/-- A send to one symmetric core in the terms of R201. -/
theorem State.sendSym_eq_sentTo (s : State) (c : SymId) (y : IrqType) : s.sendSym c y = s.sentTo c y := by
  rw [State.sendSym, State.kick_eq_kicked]
  rfl

/-- A broadcast in the terms of R201. -/
theorem State.broadcast_eq_sentToAll (s : State) (y : IrqType) : s.broadcast y = s.sentToAll y := by
  simp only [State.broadcast, State.sendSym_eq_sentTo, State.sentToAll]

/-- The pending bit of a type for the management core, and the request of its delivery (R201). -/
def State.sentToMgmt (s : State) (type : Nat) : State :=
  { s with mgmtPending := s.mgmtPending ||| (1#32 <<< type) }.kicked 4

theorem exec_sendIrq_mgmt {target : BitVec 8} {type : BitVec 16} (mgmt : target.toNat = 4) (known : type.toNat < 32)
    (s : State) : exec (.sendIrq target type) s = .next (s.sentToMgmt type.toNat).respOpen := by
  obtain rfl : target = 4#8 := BitVec.eq_of_toNat_eq mgmt
  have legal : mgmtTypeOf type = some ⟨type.toNat, known⟩ := dif_pos known
  rw [exec, execSendIrq, if_pos rfl, legal, State.sentToMgmt, ← State.kick_eq_kicked]
  rfl

theorem exec_sendIrq_all {target : BitVec 8} {type : BitVec 16} {y : IrqType} (all : target.toNat = 5)
    (known : type.toNat = y.val) (s : State) :
    exec (.sendIrq target type) s = .next (s.sentToAll y).respOpen := by
  obtain rfl : target = 5#8 := BitVec.eq_of_toNat_eq all
  rw [exec, execSendIrq, if_neg (by decide), if_pos rfl, State.withType_of_toNat known, State.broadcast_eq_sentToAll]

theorem exec_sendIrq_sym {target : BitVec 8} {type : BitVec 16} {c : SymId} {y : IrqType} (one : target.toNat = c.val)
    (known : type.toNat = y.val) (s : State) :
    exec (.sendIrq target type) s = .next (s.sentTo c y).respOpen := by
  have symmetric : ∀ n : BitVec 8, 4 ≤ n.toNat → target ≠ n := fun n high same => by
    have := c.isLt
    rw [← same] at high
    omega
  rw [exec, execSendIrq, if_neg (symmetric 4#8 (by decide)), if_neg (symmetric 5#8 (by decide)),
    State.withSym_of_legal (symOf_of_toNat one), State.withType_of_toNat known, State.sendSym_eq_sentTo]

/-- Settles O36: the three kinds of target. -/
theorem sendSetsPendingAndKicks : Obligations.SendSetsPendingAndKicks := fun s _ _ =>
  ⟨fun mgmt known => completes_of_cmd rfl rfl (exec_sendIrq_mgmt mgmt known s),
    fun _ _ one known => completes_of_cmd rfl rfl (exec_sendIrq_sym one known s),
    fun _ all known => completes_of_cmd rfl rfl (exec_sendIrq_all all known s)⟩

/-! ### What a request of a delivery leaves, and when it adds nothing -/

theorem State.kicked_of_guard {s : State} {t : CoreId} (inFlight : s.guard[t] = true) : s.kicked t = s :=
  if_neg (by rw [inFlight]; decide)

/-- A request writes the queue and the guards only. -/
theorem State.kicked_frame (s : State) (t : CoreId) :
    s.kicked t = { s with queue := (s.kicked t).queue, guard := (s.kicked t).guard } := by
  by_cases clear : s.guard[t] = false
  · rw [State.kicked, if_pos clear]
    rfl
  · rw [State.kicked, if_neg clear]

@[simp] theorem State.kicked_sym (s : State) (t : CoreId) : (s.kicked t).sym = s.sym := by
  rw [State.kicked_frame]

@[simp] theorem State.kicked_route (s : State) (t : CoreId) : (s.kicked t).route = s.route := by
  rw [State.kicked_frame]

@[simp] theorem State.kicked_mgmtPending (s : State) (t : CoreId) : (s.kicked t).mgmtPending = s.mgmtPending := by
  rw [State.kicked_frame]

@[simp] theorem State.kicked_extra (s : State) (t : CoreId) : (s.kicked t).extra = s.extra := by
  rw [State.kicked_frame]

/-- A request leaves the guard of its target set, and clears none. -/
theorem State.guard_kicked (s : State) (t d : CoreId) : (s.kicked t).guard[d] = (s.guard[d] || decide (d = t)) := by
  by_cases clear : s.guard[t] = false
  · rw [State.kicked, if_pos clear]
    show (s.guard.set t true)[d] = _
    rw [guard_set]
    by_cases same : d = t <;> simp [same]
  · rw [State.kicked, if_neg clear]
    by_cases same : d = t
    · subst same
      simpa using clear
    · simp [same]

/-! ### What a send leaves -/

/-- The bit that a send of `y` sets in the pending vector of core `c`: none unless the route lists the core (R201). -/
def State.sentBits (s : State) (c : SymId) (y : IrqType) : BitVec 128 :=
  if s.route[y].getLsbD c.val = true then 1#128 <<< y.val else 0#128

theorem State.sentBits_congr {s t : State} (route : t.route = s.route) (c : SymId) (y : IrqType) :
    t.sentBits c y = s.sentBits c y := by
  rw [State.sentBits, route, State.sentBits]

theorem State.sentTo_of_routed {s : State} {c : SymId} {y : IrqType} (routed : s.route[y].getLsbD c.val = true) :
    s.sentTo c y = (s.setSymIrq c { s.sym[c] with pend := s.sym[c].pend ||| (1#128 <<< y.val) }).kicked c.castSucc :=
  if_pos routed

theorem State.sentTo_of_unrouted {s : State} {c : SymId} {y : IrqType} (unrouted : ¬ s.route[y].getLsbD c.val = true) :
    s.sentTo c y = s :=
  if_neg unrouted

@[simp] theorem State.sentTo_route (s : State) (c : SymId) (y : IrqType) : (s.sentTo c y).route = s.route := by
  unfold State.sentTo; split <;> simp

@[simp] theorem State.sentTo_extra (s : State) (c : SymId) (y : IrqType) : (s.sentTo c y).extra = s.extra := by
  unfold State.sentTo; split <;> simp

/-- A send sets the guard of its target if the route lists it, and clears none. -/
theorem State.guard_sentTo (s : State) (c : SymId) (y : IrqType) (d : CoreId) :
    (s.sentTo c y).guard[d] = (s.guard[d] || (s.route[y].getLsbD c.val && decide (d = c.castSucc))) := by
  by_cases routed : s.route[y].getLsbD c.val = true
  · rw [State.sentTo_of_routed routed, State.guard_kicked, routed, Bool.true_and]
    rfl
  · rw [State.sentTo_of_unrouted routed, Bool.eq_false_of_not_eq_true routed, Bool.false_and, Bool.or_false]

theorem State.guard_sentTo_of_routed {s : State} {c : SymId} {y : IrqType}
    (routed : s.route[y].getLsbD c.val = true) : (s.sentTo c y).guard[c.castSucc] = true := by
  rw [State.guard_sentTo, routed, decide_eq_true rfl, Bool.and_self, Bool.or_true]

/-- A send writes the pending vector of its target and no other. -/
theorem State.pend_sentTo (s : State) (c d : SymId) (y : IrqType) :
    (s.sentTo c y).sym[d].pend = if d = c then s.sym[d].pend ||| s.sentBits d y else s.sym[d].pend := by
  by_cases routed : s.route[y].getLsbD c.val = true
  · rw [State.sentTo_of_routed routed, State.kicked_sym]
    by_cases same : d = c
    · subst same
      rw [if_pos rfl, State.sentBits, if_pos routed]
      exact congrArg SymIrq.pend (s.symIrq_setSymIrq_same d _)
    · rw [if_neg same]
      exact congrArg SymIrq.pend (s.symIrq_setSymIrq_ne _ same)
  · rw [State.sentTo_of_unrouted routed]
    by_cases same : d = c
    · subst same
      rw [if_pos rfl, State.sentBits, if_neg routed, BitVec.or_zero]
    · rw [if_neg same]

/-- Two states with the same pending deliveries: the same events, the same guards. -/
def SameDeliveries (s t : State) : Prop := t.queue = s.queue ∧ t.guard = s.guard

theorem SameDeliveries.trans {s t u : State} (h : SameDeliveries s t) (k : SameDeliveries t u) : SameDeliveries s u :=
  ⟨k.1.trans h.1, k.2.trans h.2⟩

/-- A send whose target has a delivery in flight, or is not listed, adds no event (R206). -/
theorem State.sentTo_coalesces {s : State} {c : SymId} {y : IrqType}
    (inFlight : s.route[y].getLsbD c.val = true → s.guard[c.castSucc] = true) : SameDeliveries s (s.sentTo c y) := by
  by_cases routed : s.route[y].getLsbD c.val = true
  · rw [State.sentTo_of_routed routed, State.kicked_of_guard (by exact inFlight routed)]
    exact ⟨rfl, rfl⟩
  · rw [State.sentTo_of_unrouted routed]
    exact ⟨rfl, rfl⟩

/-! ### What a broadcast leaves -/

@[simp] theorem State.sentToAll_route (s : State) (y : IrqType) : (s.sentToAll y).route = s.route := by
  simp [State.sentToAll]

@[simp] theorem State.sentToAll_extra (s : State) (y : IrqType) : (s.sentToAll y).extra = s.extra := by
  simp [State.sentToAll]

theorem symId_cases (c : SymId) : c = 0 ∨ c = 1 ∨ c = 2 ∨ c = 3 := by
  revert c; decide

/-- A broadcast leaves the guard of every listed core set. -/
theorem State.guard_sentToAll {s : State} {y : IrqType} {c : SymId} (routed : s.route[y].getLsbD c.val = true) :
    (s.sentToAll y).guard[c.castSucc] = true := by
  have sets : ∀ {t : State}, t.route = s.route → (t.sentTo c y).guard[c.castSucc] = true :=
    fun route => State.guard_sentTo_of_routed (by rwa [route])
  have keeps : ∀ {t : State} (d : SymId), t.guard[c.castSucc] = true → (t.sentTo d y).guard[c.castSucc] = true :=
    fun d inFlight => by rw [State.guard_sentTo, inFlight, Bool.true_or]
  rcases symId_cases c with rfl | rfl | rfl | rfl
  · exact keeps 3 (keeps 2 (keeps 1 (sets rfl)))
  · exact keeps 3 (keeps 2 (sets (by simp)))
  · exact keeps 3 (sets (by simp))
  · exact sets (by simp)

/-- A broadcast sets the bit of its type in the pending vector of every listed core, and no other. -/
theorem State.pend_sentToAll (s : State) (c : SymId) (y : IrqType) :
    (s.sentToAll y).sym[c].pend = s.sym[c].pend ||| s.sentBits c y := by
  simp only [State.sentToAll, State.pend_sentTo, State.sentBits, State.sentTo_route]
  rcases symId_cases c with rfl | rfl | rfl | rfl <;> simp

/-- A broadcast all of whose listed cores have a delivery in flight adds no event (R206). -/
theorem State.sentToAll_coalesces {s : State} {y : IrqType}
    (inFlight : ∀ c : SymId, s.route[y].getLsbD c.val = true → s.guard[c.castSucc] = true) :
    SameDeliveries s (s.sentToAll y) := by
  have next : ∀ {t : State}, t.route = s.route → SameDeliveries s t → ∀ c, SameDeliveries s (t.sentTo c y) :=
    fun route same c => same.trans (State.sentTo_coalesces (by rw [route, same.2]; exact inFlight c))
  have zero := next rfl ⟨rfl, rfl⟩ 0
  have one := next (by simp) zero 1
  have two := next (by simp) one 2
  exact next (by simp) two 3

/-! ### Two sends before the delivery (R206) -/

/-- The bits of two sends to the management core, of which the second adds no event. -/
theorem State.sentToMgmt_coalesces (s : State) (n m : Nat) :
    let t := (s.sentToMgmt n).respOpen
    let u := t.sentToMgmt m
    u.queue = t.queue ∧ u.guard = t.guard ∧ t.guard[4] = true
      ∧ u.mgmtPending = s.mgmtPending ||| (1#32 <<< n) ||| (1#32 <<< m) := by
  intro t u
  have inFlight : t.guard[(4 : CoreId)] = true := by
    show (s.sentToMgmt n).guard[(4 : CoreId)] = true
    rw [State.sentToMgmt, State.guard_kicked, decide_eq_true rfl, Bool.or_true]
  have first : t.mgmtPending = s.mgmtPending ||| (1#32 <<< n) := State.kicked_mgmtPending _ _
  have second : u = { t with mgmtPending := t.mgmtPending ||| (1#32 <<< m) } :=
    State.kicked_of_guard (s := { t with mgmtPending := t.mgmtPending ||| (1#32 <<< m) }) inFlight
  rw [second, ← first]
  exact ⟨rfl, rfl, inFlight, rfl⟩

/-- The pending bits of two sends to one symmetric core. -/
theorem State.pend_sentTo_sentTo (s : State) (c : SymId) (y y' : IrqType) :
    ((s.sentTo c y).respOpen.sentTo c y').sym[c].pend = s.sym[c].pend ||| s.sentBits c y ||| s.sentBits c y' := by
  have first : (s.sentTo c y).respOpen.sym[c].pend = s.sym[c].pend ||| s.sentBits c y := by
    rw [State.respOpen_sym, State.pend_sentTo, if_pos rfl]
  have route : (s.sentTo c y).respOpen.route = s.route := State.sentTo_route s c y
  rw [State.pend_sentTo, if_pos rfl, first, State.sentBits_congr route]

/-- The pending bits of two broadcasts. -/
theorem State.pend_sentToAll_sentToAll (s : State) (c : SymId) (y y' : IrqType) :
    ((s.sentToAll y).respOpen.sentToAll y').sym[c].pend = s.sym[c].pend ||| s.sentBits c y ||| s.sentBits c y' := by
  have first : (s.sentToAll y).respOpen.sym[c].pend = s.sym[c].pend ||| s.sentBits c y := by
    rw [State.respOpen_sym, State.pend_sentToAll]
  have route : (s.sentToAll y).respOpen.route = s.route := State.sentToAll_route s y
  rw [State.pend_sentToAll, first, State.sentBits_congr route]

/-- Settles O37: after the first send the guard of each of its targets is set, so the second finds a delivery in flight
and leaves the queue and the guards; the pending bits are those of the two sends. -/
theorem sendsCoalesce : Obligations.SendsCoalesce := by
  intro s t u target type type' first second
  refine ⟨fun mgmt known known' => ?_, fun y y' known known' => ⟨fun c one routed => ?_, fun all => ?_⟩⟩
  · rw [exec_sendIrq_mgmt mgmt known] at first
    cases first
    rw [exec_sendIrq_mgmt mgmt known'] at second
    cases second
    exact s.sentToMgmt_coalesces type.toNat type'.toNat
  · rw [exec_sendIrq_sym one known] at first
    cases first
    rw [exec_sendIrq_sym one known'] at second
    cases second
    have inFlight := State.guard_sentTo_of_routed routed
    obtain ⟨queue, guard⟩ := State.sentTo_coalesces (s := (s.sentTo c y).respOpen) (y := y') fun _ => inFlight
    exact ⟨queue, guard, inFlight, s.pend_sentTo_sentTo c y y'⟩
  · rw [exec_sendIrq_all all known] at first
    cases first
    rw [exec_sendIrq_all all known'] at second
    cases second
    refine ⟨fun c => State.guard_sentToAll, fun c => s.pend_sentToAll_sentToAll c y y', fun within => ?_⟩
    refine State.sentToAll_coalesces (s := (s.sentToAll y).respOpen) fun c routed => ?_
    have listed : s.route[y'].getLsbD c.val = true := by rwa [← State.sentToAll_route s y]
    exact State.guard_sentToAll (within c listed)

/-! ## Software-generated interrupts (R215) -/

theorem State.sgiTo_eq_sgiSentTo (s : State) (i : SymId) (y : Fin 16) (T : BitVec 4) (c : SymId) :
    s.sgiTo i y T c = s.sgiSentTo i y T c := by
  rw [State.sgiTo, State.kick_eq_kicked]
  rfl

theorem State.sgiSend_eq_sgiSentTo (s : State) (i : SymId) (y : Fin 16) (T : BitVec 4) :
    s.sgiSend i y T = (((s.sgiSentTo i y T 0).sgiSentTo i y T 1).sgiSentTo i y T 2).sgiSentTo i y T 3 := by
  simp only [State.sgiSend, State.sgiTo_eq_sgiSentTo]

/-- The target set in each of the three modes (R215, R98). -/
theorem sgiTargets_spec {i : SymId} {mask : BitVec 4} {mode : BitVec 2} {T : BitVec 4}
    (h : sgiTargets i mask mode = some T) :
    (mode.toNat = 0 → T = mask) ∧ (mode.toNat = 1 → ∀ c : SymId, T.getLsbD c.val = true ↔ c ≠ i)
      ∧ (mode.toNat = 2 → ∀ c : SymId, T.getLsbD c.val = true ↔ c = i) := by
  have others : ∀ i c : SymId, (0b1111#4 &&& ~~~(1#4 <<< i.val)).getLsbD c.val = true ↔ c ≠ i := by decide
  have self : ∀ i c : SymId, (1#4 <<< i.val).getLsbD c.val = true ↔ c = i := by decide
  unfold sgiTargets at h
  split at h <;> cases h
  · exact ⟨fun _ => rfl, nofun, nofun⟩
  · exact ⟨nofun, fun _ => others i, nofun⟩
  · exact ⟨nofun, nofun, fun _ => self i⟩

theorem exec_sgi {core : BitVec 8} {i : SymId} {type : BitVec 10} {y : Fin 16} {mask : BitVec 4} {mode : BitVec 2}
    {T : BitVec 4} (legal : symOf core = some i) (known : type.toNat = y.val)
    (targets : sgiTargets i mask mode = some T) (s : State) :
    exec (.sgi core type mask mode) s = .next (s.sgiSend i y T).respOpen := by
  have type_known : sgiTypeOf type = some y := by simp [sgiTypeOf, known]
  rw [exec, execSgi, State.withSym_of_legal legal, type_known, targets]

/-- Settles O38: the target set is that of the mode (`sgiTargets_spec`), served in ascending order. -/
theorem sgiReachesItsTargets : Obligations.SgiReachesItsTargets := by
  intro s core i type y mask mode legal known other
  obtain ⟨T, targets⟩ : ∃ T, sgiTargets i mask mode = some T := by
    rw [← Option.isSome_iff_exists, ← Option.not_isNone, sgiTargets_isNone]
    simpa using other
  refine ⟨T, ?_, sgiTargets_spec targets⟩
  rw [← State.sgiSend_eq_sgiSentTo]
  exact completes_of_cmd rfl rfl (exec_sgi legal known targets s)

/-! ## The registers of the management core (R217 to R220) -/

theorem exec_mgmtEnableWrite (value : Word) (s : State) :
    exec (.mgmtEnableWrite value) s = .next ({ s with mgmtEnable := value }.checked 4).respOpen := by
  rw [← State.irqCheck_eq_checked]
  rfl

/-- Settles O39: two writes and two reads. -/
theorem managementRegisters : Obligations.ManagementRegisters := fun s =>
  ⟨fun value => completes_of_cmd rfl rfl (exec_mgmtEnableWrite value s),
    fun _ => completes_of_cmd rfl rfl rfl, returns_of_zext rfl, returns_of_zext rfl⟩

/-! ## The registers of the distributor (R221 to R224, R226, R227) -/

theorem exec_distEnableWrite (value : BitVec 1) (s : State) :
    exec (.distEnableWrite value) s
      = .next (((({ s with distEnable := decide (value = 1#1) }.checked 0).checked 1).checked 2).checked
          3).respOpen := by
  rw [exec, execDistEnableWrite, getLsbD_zero_eq_decide]
  simp only [State.irqCheck_eq_checked]

section
variable {core : BitVec 8} {c : SymId} {type : BitVec 16} {y : IrqType}

theorem exec_localEnableWrite (legal : symOf core = some c) (value : BitVec 1) (s : State) :
    exec (.localEnableWrite core value) s
      = .next ((s.setSymIrq c { s.symIrq c with localEnable := decide (value = 1#1) }).checked
          (symCore c)).respOpen := by
  rw [exec, execLocalEnableWrite, State.withSym_of_legal legal, getLsbD_zero_eq_decide, State.irqCheck_eq_checked]

theorem exec_irqEnableSet (legal : symOf core = some c) (known : type.toNat = y.val) (s : State) :
    exec (.irqEnableSet core type) s
      = .next ((s.setSymIrq c { s.symIrq c with enab := withBit (s.symIrq c).enab y.val }).checked
          (symCore c)).respOpen := by
  rw [exec, execIrqEnableSet, State.withSym_of_legal legal, State.withType_of_toNat known, State.irqCheck_eq_checked]

theorem exec_irqEnableClear (legal : symOf core = some c) (known : type.toNat = y.val) (s : State) :
    exec (.irqEnableClear core type) s
      = .next (s.setSymIrq c { s.symIrq c with enab := withoutBit (s.symIrq c).enab y.val }).respOpen := by
  rw [exec, execIrqEnableClear, State.withSym_of_legal legal, State.withType_of_toNat known]

theorem exec_irqEoi (legal : symOf core = some c) (known : type.toNat = y.val) (s : State) :
    exec (.irqEoi core type) s
      = .next ((s.setSymIrq c { s.symIrq c with active := withoutBit (s.symIrq c).active y.val }).checked
          (symCore c)).respOpen := by
  rw [exec, execIrqEoi, State.withSym_of_legal legal, State.withType_of_toNat known, State.irqCheck_eq_checked]

theorem exec_irqAck_of_none {s : State} (legal : symOf core = some c) (nothing : s.ackable c = none) :
    exec (.irqAck core) s = .next (s.respond 1023#64) := by
  rw [exec, execIrqAck, State.withSym_of_legal legal, nothing]

theorem exec_irqAck_of_some {s : State} (legal : symOf core = some c) (claim : s.ackable c = some y) :
    exec (.irqAck core) s
      = .next ((s.setSymIrq c
          { s.symIrq c with
            pend := withoutBit (s.symIrq c).pend y.val
            active := withBit (s.symIrq c).active y.val }).respond (ackResponse ((s.symIrq c).source y) y)) := by
  rw [exec, execIrqAck, State.withSym_of_legal legal, claim]

end

/-- Settles O40: each write, and the checks that follow it. -/
theorem distributorEnables : Obligations.DistributorEnables := fun s =>
  ⟨fun value => completes_of_cmd rfl rfl (exec_distEnableWrite value s), fun _ _ legal =>
    ⟨fun value => completes_of_cmd rfl rfl (exec_localEnableWrite legal value s), fun _ _ known =>
      ⟨completes_of_cmd rfl rfl (exec_irqEnableSet legal known s),
        completes_of_cmd rfl rfl (exec_irqEnableClear legal known s)⟩⟩⟩

/-- Settles O42: the active bit is cleared, and the check follows. -/
theorem endOfInterrupt : Obligations.EndOfInterrupt := fun s _ _ _ _ legal known =>
  completes_of_cmd rfl rfl (exec_irqEoi legal known s)

/-! ### The acknowledge (R226) -/

theorem lowestBit_zero : lowestBit 0#128 = none := by
  simp [lowestBit]

/-- A bit that is set, and below which none is, is the lowest. -/
theorem lowestBit_eq_some {v : BitVec 128} {y : IrqType} (bit : v.getLsbD y.val = true)
    (lowest : ∀ z : IrqType, z < y → v.getLsbD z.val = false) : lowestBit v = some y := by
  rw [lowestBit, List.find?_eq_some_iff_getElem]
  refine ⟨bit, y.val, by simp, by simp, fun j below => ?_⟩
  simpa using lowest ⟨j, by omega⟩ below

/-- A closed gate, or nothing pending and enabled: nothing to claim. -/
theorem State.ackable_eq_none {s : State} {c : SymId}
    (h : s.distEnable = false ∨ s.sym[c].localEnable = false ∨ s.sym[c].pend &&& s.sym[c].enab = 0#128) :
    s.ackable c = none := by
  unfold State.ackable State.symIrq
  rcases h with closed | closed | empty
  · rw [closed, Bool.false_and]
    rfl
  · rw [closed, Bool.and_false]
    rfl
  · rw [empty, lowestBit_zero, ite_self]

theorem State.ackable_eq_some {s : State} {c : SymId} {y : IrqType} (dist : s.distEnable = true)
    (gate : s.sym[c].localEnable = true) (bit : (s.sym[c].pend &&& s.sym[c].enab).getLsbD y.val = true)
    (lowest : ∀ z : IrqType, z < y → (s.sym[c].pend &&& s.sym[c].enab).getLsbD z.val = false) :
    s.ackable c = some y := by
  rw [State.ackable, State.symIrq, dist, gate, Bool.and_self, if_pos rfl]
  exact lowestBit_eq_some bit lowest

/-- The recorded sender, as a number. -/
theorem SymIrq.toNat_source (k : SymIrq) (y : IrqType) :
    (k.source y).toNat = if h : y.val < 16 then k.src[y.val].toNat else 0 := by
  unfold SymIrq.source
  split <;> rfl

/-- The response holds the type in its low ten bits and the sender above them (R100). -/
theorem ackResponse_eq_ofNat (src : BitVec 2) (y : IrqType) :
    ackResponse src y = BitVec.ofNat 64 (src.toNat * 1024 + y.val) := by
  have type_fits : y.val < 2 ^ 10 := y.isLt.trans (by decide)
  have src_fits := src.isLt
  apply BitVec.eq_of_toNat_eq
  rw [ackResponse, BitVec.toNat_append, BitVec.toNat_append, BitVec.toNat_ofNat, BitVec.toNat_ofNat, BitVec.toNat_ofNat,
    Nat.mod_eq_of_lt type_fits, ← Nat.shiftLeft_add_eq_or_of_lt type_fits, Nat.zero_mod, Nat.zero_shiftLeft,
    Nat.zero_or, Nat.shiftLeft_eq]
  omega

/-- Settles O41: what can be claimed is `State.ackable_eq_none` and `State.ackable_eq_some`, and the answer is
`ackResponse_eq_ofNat`. -/
theorem acknowledgeClaimsTheLowest : Obligations.AcknowledgeClaimsTheLowest := by
  intro s core c legal k
  refine ⟨fun nothing => ?_, fun y dist gate bit lowest => ?_⟩
  · exact ⟨_, exec_irqAck_of_none legal (State.ackable_eq_none nothing), rfl, fun _ => rfl⟩
  · have claimed := exec_irqAck_of_some legal (State.ackable_eq_some dist gate bit lowest)
    rw [ackResponse_eq_ofNat, SymIrq.toNat_source] at claimed
    exact ⟨_, claimed, rfl, fun _ => rfl⟩

/-! ## Deliveries (R205) -/

theorem State.deliverLine_of_low {s : State} {t : CoreId} (low : s.line t = false) : s.deliverLine t = s :=
  if_neg (by rw [low]; decide)

/-- An asserted line ends the interrupt wait, and enters the exception if I is 0. -/
theorem State.deliverLine_of_asserted {s : State} {t : CoreId} (asserted : s.line t = true) :
    s.deliverLine t = s.wakeAndEnter t :=
  if_pos asserted

/-- What a delivery `i` to `t` comes to once it has left `d` and re-scans the line: `d` itself if the line is low, and
otherwise the wait ended, with the exception entered if I is 0 (R205). -/
def EndsDelivery (i : Instr) (s : State) (t : CoreId) (d : State) : Prop :=
  let w := { d with cores := s.cores.set t { s.core t with halted := (s.core t).halted &&& 0xFE#8 } }
  (s.line t = false → Completes i s d)
    ∧ (s.line t = true → irqMasked (s.core t).status = true → Completes i s w)
    ∧ (s.line t = true → irqMasked (s.core t).status = false → Completes i s (w.excEntry t .irq))

/-- A re-scan ends a delivery, wherever nothing that the line or the contexts depend on has changed. -/
theorem endsDelivery_of_deliverLine {b : TaskId} {s d : State} {t : CoreId}
    (h : exec (decodeTask b) s = .next (d.deliverLine t).respOpen) (line : d.line t = s.line t)
    (cores : d.cores = s.cores) : EndsDelivery (decodeTask b) s t d := by
  unfold EndsDelivery
  intro w
  have woken : d.setCore t { s.core t with halted := withoutBit (s.core t).halted 0 } = w := by
    rw [State.setCore, cores]
    rfl
  rw [← line, ← woken]
  refine ⟨fun low => ?_, fun asserted masked => ?_, fun asserted unmasked => ?_⟩
  · rw [State.deliverLine_of_low low] at h
    exact completes_of_task h
  · rw [State.deliverLine_of_asserted asserted, State.wakeAndEnter, State.core_congr cores, masked] at h
    exact completes_of_task h
  · rw [State.deliverLine_of_asserted asserted, State.wakeAndEnter, State.core_congr cores, unmasked] at h
    exact completes_of_task h

/-- A delivery to an extra core that is stopped is withheld. -/
theorem completes_of_deliverExtra {b : TaskId} {s : State} {e : Fin 2} {t : CoreId}
    (h : exec (decodeTask b) s = .next (s.deliverExtra e t).respOpen) (stopped : s.extra[e].started = false) :
    Completes (decodeTask b) s (s.clearGuard t) := by
  rw [State.deliverExtra, if_neg (by rw [stopped]; decide)] at h
  exact completes_of_task h

/-- A delivery to an extra core that is started marks it as running. -/
theorem endsDelivery_of_deliverExtra {b : TaskId} {s : State} {e : Fin 2} {t : CoreId}
    (h : exec (decodeTask b) s = .next (s.deliverExtra e t).respOpen) (started : s.extra[e].started = true) :
    EndsDelivery (decodeTask b) s t ((s.clearGuard t).setExtra e { s.extra[e] with xrunning := true }) := by
  rw [State.deliverExtra, if_pos started] at h
  exact endsDelivery_of_deliverLine h rfl rfl

/-- Settles O43: a delivery ends as `EndsDelivery` says, and only one to an extra core that is stopped is withheld. -/
theorem deliveryWakesAndEnters : Obligations.DeliveryWakesAndEnters := by
  intro s t i listed g x d w
  simp only [List.mem_cons, Prod.mk.injEq, List.not_mem_nil, or_false] at listed
  rcases listed with ⟨rfl, rfl⟩ | ⟨rfl, rfl⟩ | ⟨rfl, rfl⟩ | ⟨rfl, rfl⟩ | ⟨rfl, rfl⟩
  · exact ⟨nofun, fun _ => endsDelivery_of_deliverLine (b := 3#8) (d := s.clearGuard 0) rfl rfl rfl⟩
  · exact ⟨nofun, fun _ => endsDelivery_of_deliverLine (b := 4#8) (d := s.clearGuard 1) rfl rfl rfl⟩
  · refine ⟨fun withheld => ?_, fun free => ?_⟩
    · obtain ⟨_, stopped⟩ | ⟨other, _⟩ := withheld
      · exact completes_of_deliverExtra (b := 5#8) rfl stopped
      · cases other
    · have started := Bool.eq_true_of_not_eq_false fun stopped => free (.inl ⟨rfl, stopped⟩)
      exact endsDelivery_of_deliverExtra (b := 5#8) rfl started
  · refine ⟨fun withheld => ?_, fun free => ?_⟩
    · obtain ⟨other, _⟩ | ⟨_, stopped⟩ := withheld
      · cases other
      · exact completes_of_deliverExtra (b := 6#8) rfl stopped
    · have started := Bool.eq_true_of_not_eq_false fun stopped => free (.inr ⟨rfl, stopped⟩)
      exact endsDelivery_of_deliverExtra (b := 6#8) rfl started
  · exact ⟨nofun, fun _ => endsDelivery_of_deliverLine (b := 7#8) (d := s.clearGuard 4) rfl rfl rfl⟩

/-! ## Halting (R210 to R214, R184) -/

theorem State.clusterHalted_iff (s : State) :
    s.clusterHalted = true ↔ ∀ d : CoreId, d ≠ 4 → (s.core d).halted ≠ 0#8 := by
  simp [State.clusterHalted, CpuContext.isHalted, Fin.forall_fin_succ, and_assoc]

/-- The cluster check in the terms of R210 and R211. -/
theorem State.clusterCheck_eq (s : State) (c : CoreId) :
    s.clusterCheck c
      = if c ≠ 4 ∧ (∀ d : CoreId, d ≠ 4 → (s.core d).halted ≠ 0#8) ∧ s.perfCfg ≠ s.perfEff then
          { s with perfEff := s.perfCfg, out := .memcfgUpdate s.perfCfg :: s.out }.sentToAll s.params.perfIrqType
        else s := by
  simp only [← State.clusterHalted_iff, ← and_assoc, ite_and]
  rw [State.clusterCheck, State.clusterIdle, State.broadcast_eq_sentToAll, ite_and]
  rfl

@[simp] theorem State.clusterCheck_extra (s : State) (c : CoreId) : (s.clusterCheck c).extra = s.extra := by
  rw [State.clusterCheck_eq]
  split <;> simp

/-- The shutdown sequence in the terms of R212: extra core `e` is named, and `f` is the other one. -/
theorem State.shutdownSeq_eq {s p : State} (same : p.extra = s.extra) {e f : Fin 2} (other : e ≠ f) :
    p.shutdownSeq e
      = if s.extra[e].shutdownPending = true then
          let q := { p with extra := s.extra.set e ⟨false, false, false⟩ }
          if s.extra[f].started = false then q.withEvent 2#8 0#64 else q
        else p := by
  have stopped : ∀ q : Vector ExtraCore 2, ((q.set e ⟨false, false, false⟩)[0].started = false
      ∧ (q.set e ⟨false, false, false⟩)[1].started = false) ↔ q[f].started = false := by
    obtain ⟨rfl, rfl⟩ | ⟨rfl, rfl⟩ : e = 0 ∧ f = 1 ∨ e = 1 ∧ f = 0 := by omega
    all_goals simp
  rw [← same]
  simp only [State.shutdownSeq, State.setExtra, stopped, State.schedule_eq_withEvent]

theorem State.shutdownCheck_eq (s : State) (c : CoreId) :
    s.shutdownCheck c = if c = 2 then s.shutdownSeq 0 else if c = 3 then s.shutdownSeq 1 else s := by
  fin_cases c <;> rfl

/-- `HALT` and `WAIT_IRQ` are both `Halt` (R184, R210). -/
theorem completes_halt {s : State} {core reason : BitVec 8} {c : CoreId} {r : Fin 8} {i : Instr}
    (legal : coreOf core = some c) (h : i = .halt core reason ∧ reason.toNat = r.val ∨ i = .waitIrq core ∧ r = 0) :
    Completes i s (s.halt c r) := by
  rcases h with ⟨rfl, known⟩ | ⟨rfl, rfl⟩
  · refine completes_of_cmd rfl rfl ?_
    rw [exec, execHalt, State.withCore_of_legal legal, State.withReason_of_toNat known]
  · refine completes_of_cpu rfl ?_ (.refl _)
    rw [exec, execWaitIrq, State.withCore_of_legal legal]

/-- Settles O44: both operations are `Halt` (`completes_halt`), whose two checks are `State.clusterCheck_eq` and
`State.shutdownSeq_eq`. -/
theorem haltProcedure : Obligations.HaltProcedure := by
  intro s core reason c r i legal op h p stop
  have completes := completes_halt (s := s) legal op
  have check : h.clusterCheck c = p := h.clusterCheck_eq c
  have sequence : ∀ e f : Fin 2, e ≠ f → p.shutdownSeq e = stop e f := fun e f other =>
    State.shutdownSeq_eq (check ▸ State.clusterCheck_extra h c) other
  have halted : s.halt c r = (h.clusterCheck c).shutdownCheck c := rfl
  rw [halted, check, State.shutdownCheck_eq, sequence 0 1 (by decide), sequence 1 0 (by decide)] at completes
  exact completes

theorem exec_unhalt {core reason : BitVec 8} {c : CoreId} {r : Fin 8} (legal : coreOf core = some c)
    (known : reason.toNat = r.val) (s : State) :
    exec (.unhalt core reason) s
      = .next (s.setCore c { s.core c with halted := withoutBit (s.core c).halted r.val }).respOpen := by
  rw [exec, execUnhalt, State.withCore_of_legal legal, State.withReason_of_toNat known]

/-- Settles O45: one bit of one context is cleared. -/
theorem unhaltClearsTheReason : Obligations.UnhaltClearsTheReason := fun s _ _ _ _ legal known =>
  completes_of_cmd rfl rfl (exec_unhalt legal known s)

/-! ## The extra cores (R230, R231) -/

theorem exec_xcoreStart {core : BitVec 8} {e : Fin 2} (known : core.toNat = e.val + 2) (s : State) :
    exec (.xcoreStart core) s
      = .next ((s.setExtra e { s.extra[e] with started := true, shutdownPending := false }).withEvent 2#8
          0#64).respOpen := by
  rw [exec, execXcoreStart, State.withExtra_of_toNat known, State.schedule_eq_withEvent]

theorem exec_xcoreShutdownReq {core : BitVec 8} {e : Fin 2} (known : core.toNat = e.val + 2) (s : State) :
    exec (.xcoreShutdownReq core) s
      = .next (if s.extra[e].started = true then s.setExtra e { s.extra[e] with shutdownPending := true }
          else s).respOpen := by
  rw [exec, execXcoreShutdownReq, State.withExtra_of_toNat known]
  split <;> rfl

/-- Settles O46: a shutdown is requested of a started core only. -/
theorem extraCoreCommands : Obligations.ExtraCoreCommands := by
  refine fun s core e known =>
    ⟨completes_of_cmd rfl rfl (exec_xcoreStart known s), fun started => ?_, fun stopped => ?_⟩
  all_goals have requested := completes_of_cmd rfl rfl (exec_xcoreShutdownReq known s)
  · rwa [if_pos started] at requested
  · rwa [if_neg (by rw [stopped]; decide)] at requested

end Sys2Proof.Machine
end

section
/-! SUPPORT. Exceptions (`60_exceptions.md`): the table of the types, what the entry makes of the status and of the rest
of a context, and the register writes that do nothing else. -/

namespace Sys2Proof.Machine

/-! ## The table (R250) -/

/-- The code of an exception type. -/
def Exc.code : Exc → BitVec 3
  | .reset => 0#3
  | .undefined => 1#3
  | .supervisorCall => 2#3
  | .prefetchAbort => 3#3
  | .dataAbort => 4#3
  | .irq => 6#3
  | .fiq => 7#3

theorem excOf_eq_some_iff (code : BitVec 3) (x : Exc) : excOf code = some x ↔ code = x.code := by
  cases x <;> revert code <;> decide

theorem excOf_eq_none_iff (code : BitVec 3) : excOf code = none ↔ code = 5#3 := by
  revert code; decide

/-- The vectors stand one word apart, in the order of the codes. -/
theorem vecOffset_eq (x : Exc) : vecOffset x = BitVec.ofNat 32 (4 * x.code.toNat) := by
  cases x <;> rfl

theorem excMasksFiq_iff (x : Exc) : excMasksFiq x = true ↔ x.code = 0#3 ∨ x.code = 7#3 := by
  cases x <;> decide

theorem excMode_eq_privMode (x : Exc) : excMode x = privMode (excBank x) := by
  cases x <;> rfl

theorem bankOf_excMode (x : Exc) : bankOf (excMode x) = some (.priv (excBank x)) :=
  (bankOf_eq_priv_iff _ _).2 (excMode_eq_privMode x)

/-- Settles O31: a known code is the code of its type (`excOf_eq_some_iff`), whose row is read off. -/
theorem exceptionTable : Obligations.ExceptionTable := by
  refine ⟨fun code x known => ?row, excOf_eq_none_iff, rfl, rfl, rfl, rfl, rfl, rfl, rfl, bankOf_excMode⟩
  obtain rfl := (excOf_eq_some_iff code x).1 known
  exact ⟨vecOffset_eq x, excMasksFiq_iff x⟩

/-! ## The status after entry (R252) -/

section
variable (old : Word) (x : Exc)

theorem compact_entryStatus : compact (entryStatus old x) = false := by
  simp only [compact, entryStatus, BitVec.getLsbD_append]
  rfl

theorem fiqMasked_entryStatus : fiqMasked (entryStatus old x) = (fiqMasked old || excMasksFiq x) := by
  rw [fiqMasked, entryStatus]
  simp only [BitVec.getLsbD_append]
  cases fiqMasked old || excMasksFiq x <;> rfl

theorem irqMasked_entryStatus : irqMasked (entryStatus old x) = true := by
  simp only [irqMasked, entryStatus, BitVec.getLsbD_append]
  rfl

/-- Entry keeps the bits above the mode and the three flags. -/
theorem extractLsb'_entryStatus : (entryStatus old x).extractLsb' 8 24 = old.extractLsb' 8 24 := by
  apply BitVec.eq_of_getLsbD_eq
  intro i hi
  have above : ¬ 8 + i < 5 ∧ ¬ 8 + i - 5 < 1 ∧ ¬ 8 + i - 5 - 1 < 1 ∧ ¬ 8 + i - 5 - 1 - 1 < 1 := by omega
  have back : 8 + i - 5 - 1 - 1 - 1 = i := by omega
  simp only [entryStatus, BitVec.getLsbD_extractLsb', BitVec.getLsbD_append, above, back, if_false, hi, decide_true,
    Bool.true_and]

end

/-! ## The context after entry (R252) -/

/-- The link register is the logical register 14 of the target mode's bank (R31). -/
theorem phys_fourteen (b : Bank) : phys b 14#4 = highSlot b 1 := rfl

section
variable (k : CpuContext) (x : Exc)

theorem CpuContext.readSlot_setPc {p : Slot} (general : p ≠ .pc) (v : Word) :
    CpuContext.readSlot { k with pc := v } p = k.readSlot p := by
  cases p with
  | normal | fiq | irq | svc | abt | und => rfl
  | pc => exact absurd rfl general

theorem CpuContext.readSlot_setStatus (p : Slot) (v : Word) :
    CpuContext.readSlot { k with status := v } p = k.readSlot p := by
  cases p <;> rfl

theorem CpuContext.saved_setPc (b : PrivBank) (v : Word) : CpuContext.saved { k with pc := v } b = k.saved b := by
  cases b <;> rfl

theorem CpuContext.saved_setStatus (b : PrivBank) (v : Word) :
    CpuContext.saved { k with status := v } b = k.saved b := by
  cases b <;> rfl

/-- Entry writes one general register, the link register of the target mode. -/
theorem CpuContext.readSlot_enter {p : Slot} (general : p ≠ .pc) :
    (k.enter x).readSlot p = if phys (.priv (excBank x)) 14#4 = p then k.entryLink else k.readSlot p := by
  rw [CpuContext.enter, CpuContext.readSlot_setPc _ general, CpuContext.readSlot_writeSlot,
    CpuContext.readSlot_withSaved, CpuContext.readSlot_setStatus, phys_fourteen]

/-- Entry writes one saved status, that of the target mode. -/
theorem CpuContext.saved_enter (b : PrivBank) :
    (k.enter x).saved b = if excBank x = b then k.status else k.saved b := by
  rw [CpuContext.enter, CpuContext.saved_setPc, CpuContext.saved_writeSlot, CpuContext.saved_withSaved,
    CpuContext.saved_setStatus]

theorem CpuContext.enter_halted : (k.enter x).halted = k.halted := by
  cases x <;> rfl

theorem CpuContext.enter_excBase : (k.enter x).excBase = k.excBase := by
  cases x <;> rfl

end

/-- `ExcEntry` is a redirection to the vector (R252): the context of entry already has its `pc` there. -/
theorem State.excEntry_redirected (s : State) (c : CoreId) (x : Exc) :
    SameButCount (s.excEntry c x) (s.redirected c ((s.core c).enter x) ((s.core c).excBase + vecOffset x)) :=
  State.flush_redirected s c ((s.core c).enter x) ((s.core c).excBase + vecOffset x)

/-- Settles O32: the context of entry is the witness; by the bank table (`bankTable`) a logical register is the link
register it writes exactly when it is register 14 of the target mode. -/
theorem exceptionEntry : Obligations.ExceptionEntry := by
  intro s c x k
  have link : ∀ {n d j}, bankOf n = some d →
      (phys (.priv (excBank x)) 14#4 = phys d j ↔ sameRegister (excMode x) 14#4 n j) :=
    fun other => bankTable.1 _ _ _ _ (bankOf_excMode x) other _ _
  refine ⟨k.enter x, s.excEntry_redirected c x, ?mode, ?compact, ?irqMasked, ?fiqMasked, ?upper, ?saved,
    fun b other => ?savedKept, fun n d j bank same => ?written, fun n d j bank general differ => ?kept,
    k.enter_readyAt x, k.enter_halted x, k.enter_excBase x⟩
  case mode => rw [CpuContext.enter_status, modeOf_entryStatus]
  case compact => rw [CpuContext.enter_status, compact_entryStatus]
  case irqMasked => rw [CpuContext.enter_status, irqMasked_entryStatus]
  case fiqMasked => rw [CpuContext.enter_status, fiqMasked_entryStatus, Bool.or_eq_true]
  case upper => rw [CpuContext.enter_status, extractLsb'_entryStatus]
  case saved => rw [CpuContext.saved_enter, if_pos rfl]
  case savedKept => rw [CpuContext.saved_enter, if_neg other.symm]
  case written =>
    have slot := (link bank).2 same
    rw [← slot, CpuContext.readSlot_enter k x (phys_ne_pc _ _ (by decide)), if_pos rfl, CpuContext.entryLink]
  case kept =>
    rw [CpuContext.readSlot_enter k x (phys_ne_pc d j general), if_neg fun slot => differ ((link bank).1 slot)]

/-! ## Plain register writes (R225, R232, R257) -/

theorem exec_excBaseWrite {core : BitVec 8} {c : CoreId} (legal : coreOf core = some c) (value : Word) (s : State) :
    exec (.excBaseWrite core value) s = .next (s.setCore c { s.core c with excBase := value }).respOpen := by
  rw [exec, execExcBaseWrite, State.withCore_of_legal legal]

theorem exec_routeWrite {type : BitVec 16} {y : IrqType} (known : type.toNat = y.val) (mask : BitVec 4) (s : State) :
    exec (.routeWrite type mask) s = .next { s with route := s.route.set y mask }.respOpen := by
  rw [exec, execRouteWrite, State.withType_of_toNat known]

/-- Settles O47: each command writes its register, and no check of a line follows. -/
theorem plainRegisterWrites : Obligations.PlainRegisterWrites := fun s =>
  ⟨fun _ _ value legal => completes_of_cmd rfl rfl (exec_excBaseWrite legal value s),
    fun _ _ mask known => completes_of_cmd rfl rfl (exec_routeWrite known mask s),
    fun _ => completes_of_cmd rfl rfl rfl⟩

end Sys2Proof.Machine
end

section
/-! SUPPORT. The reset sequence while the boot image is missing: what its step 1 leaves and how it repeats. -/

namespace Sys2Proof.Machine

/-- Without the boot image the reset sequence changes the phase and nothing else (R291 step 1, R292). -/
theorem State.enterReset_of_no_image {s : State} (missing : s.bootImageOk = false) :
    s.enterReset = { s with phase := .inReset } :=
  if_neg (by rw [missing]; exact Bool.false_ne_true)

/-- While SEB is in reset, the step is the reset sequence again: no port is looked at. -/
theorem step_of_inReset {s : State} (ph : s.phase = .inReset) : step s = .next s.enterReset := by
  rw [step, State.transition, ph, State.resetStep]

/-- A waiting machine waits on: the reset sequence gives it back as it is. -/
theorem State.enterReset_of_waiting {s : State} (missing : s.bootImageOk = false) (ph : s.phase = .inReset) :
    s.enterReset = s :=
  calc s.enterReset = { s with phase := .inReset } := State.enterReset_of_no_image missing
    _ = s := by rw [← ph]

/-- Settles O50: `RESET` stops at step 1 of its sequence, and a machine that waits there is given back by every step. -/
theorem resetWaitsForTheBootImage : Obligations.ResetWaitsForTheBootImage := by
  intro s missing
  refine ⟨?stops, fun ph => ?waits⟩
  case stops => exact congrArg Host.Outcome.next (State.enterReset_of_no_image missing)
  case waits => rw [step_of_inReset ph, State.enterReset_of_waiting missing ph]

end Sys2Proof.Machine
end
